-- ==== Sys2Proof/Word.lean ====
section
/-! DEFINITION. The word types of the block (spec/00_scope.md R9): a byte is 8 bits, every value is
unsigned, bit 0 is the least significant bit. -/

namespace Sys2Proof

/-- R9: a byte is 8 bits. -/
abbrev Byte := BitVec 8

/-- A 16-bit field value (R55), for example `otId` or `ivData`. -/
abbrev Half := BitVec 16

/-- The 24-bit field value of `expPoints` (R55, R124). -/
abbrev Triple := BitVec 24

end Sys2Proof
end

