-- ==== Sys2Proof/Config.lean ====
section
/-! DEFINITION. What is fixed for one block: the parameters of spec/00_scope.md R6. A *fixed* parameter
is a constant with the value the spec prints. An *OPEN* parameter has no value in the spec: it is a
field of `Params`, which every state carries, so that a claim holds for every value of it, and the
value a block has at reset is an opaque constant with no body. The free values that an unspecified
environment supplies (R164, R185) are opaque functions of a plain counter. -/

namespace Sys2Proof

/-! ### Fixed parameters (R6) -/

/-- R6 `CORE_LEN`: bytes in the core block. -/
def coreLen : Nat := 44
/-- R6 `NICK_LEN`: bytes in the nickname slot. -/
def nickLen : Nat := 11
/-- R6 `OTNAME_LEN`: bytes in the OT-name slot. -/
def otNameLen : Nat := 7
/-- R6 `TRAILER_LEN` = `NICK_LEN + OTNAME_LEN`. -/
def trailerLen : Nat := 18
/-- R6 `SLOT_LEN` = `CORE_LEN + TRAILER_LEN`. -/
def slotLen : Nat := 62
/-- R6 `SENTINEL`: pad and terminator byte of name fields. -/
def sentinel : Byte := 0x50
/-- R6 `PARTY_SIZE`: records per party. -/
def partySize : Nat := 1
/-- R6 `META_LEN`: bytes in MetadataExchange. -/
def metaLen : Nat := 27
/-- R6 `CMD_TRADE`: the start-trade command byte `'t'`. -/
def tradeByte : Byte := 0x74
/-- R6 `CMD_HELP`: the help command byte `'h'`. -/
def helpByte : Byte := 0x68

/-! ### The parameters a block carries -/

/-- The 29 core fields of a party record, in the order R29 lists them. -/
inductive CoreField where
  | speciesId | currentHp | maxHp | attack | defense | speed | special
  | level | levelInBox | statusCondition | type1 | type2 | catchRateOrHeldItem
  | move1 | move2 | move3 | move4 | pp1 | pp2 | pp3 | pp4
  | otId | expPoints | hpEv | attackEv | defenseEv | speedEv | specialEv | ivData
deriving DecidableEq, Repr

/-- R56: `LAYOUT` gives the byte offset of every core field; it is written as the table it is. -/
abbrev Layout := List (CoreField × Nat)

/-- R225 `CMD_BUSY_POLICY`: what happens to a command byte offered while busy. -/
inductive BusyPolicy where
  | hold
  | drop
deriving DecidableEq, Repr

/-- R94 `F-ANSWER`: what one exchange returns; there is no third answer. -/
inductive Answer where
  | byte (rx : Byte)
  | timeout
deriving DecidableEq, Repr, Inhabited

/-- The parameters of R6 that are OPEN or overridable, "fixed for the life of the block" (R272).
`TIMEOUT` is not among them: the spec does not model it as a duration (R163). -/
structure Params where
  /-- R56: byte offset of every core field. -/
  layout : Layout
  /-- R90: the mode byte. -/
  modeCode : Byte
  /-- R90: the become-master byte. -/
  masterCode : Byte
  /-- R90: the version-check byte. -/
  versionCode : Byte
  /-- R90: the final acknowledgement byte. -/
  ackCode : Byte
  /-- R91: the byte that encodes party index 0. -/
  selBase : Byte
  /-- R24: re-tries allowed per handshake sub-step. -/
  retryBudget : Nat
  /-- R185: bytes in EntropyExchange; at least 1 in a valid block. -/
  nEntropy : Nat
  /-- R186: whether the received trailer is written into `RCV`. -/
  wireTrailer : Bool
  /-- R225: the busy policy. -/
  busyPolicy : BusyPolicy
  /-- R222: what `'h'` reports. -/
  helpText : List Byte
deriving DecidableEq, Repr

namespace Config

/-! ### OPEN parameters: free constants (R6; log entry 2) -/

/-- R90 `MODE_CODE` (OPEN). -/
opaque modeCode : Byte
/-- R90 `MASTER_CODE` (OPEN). -/
opaque masterCode : Byte
/-- R90 `VERSION_CODE` (OPEN). -/
opaque versionCode : Byte
/-- R90 `ACK_CODE` (OPEN). -/
opaque ackCode : Byte
/-- R91 `SEL_BASE` (OPEN). -/
opaque selBase : Byte
/-- R24 `RETRY_BUDGET` (OPEN), a natural number. -/
opaque retryBudget : Nat
/-- R185 `N_ENTROPY` (OPEN) less one: the parameter is at least 1. -/
opaque nEntropyLessOne : Nat
/-- R186 `WIRE_TRAILER` (OPEN). -/
opaque wireTrailer : Bool
/-- R222 `HELP_TEXT` (OPEN). -/
opaque helpText : List Byte

/-! ### Free values of the environment (log entry 5) -/

/-- R164: the answer of an exchange whose peer nothing specifies, one for each value of the state's
`oracle` counter. -/
opaque freeAnswer : Nat → Answer
/-- R92, R185: the fill byte the entropy source draws, one for each value of the `oracle` counter. -/
opaque freeFill : Nat → Byte

end Config
end Sys2Proof
end

