-- ==== Sys2Proof/Syntax.lean ====
section
/-! DEFINITION. The operations of the block (spec/00_scope.md R7) as one inductive, one constructor for
each row of spec/opcode_table.json, with the data types their operands have (spec/10_state.md R22, R25,
R26, R28, R29) and the form in which an operation reaches the block (spec/30_encoding.md R80). -/

namespace Sys2Proof

/-- R22: the phase register's 11 values. -/
inductive Phase where
  | idle | hsMode | hsMaster | hsVersion | entropy | metadata | select | record | confirm
  | complete | failed
deriving DecidableEq, Repr

/-- R25: the failure cause register's 5 values. -/
inductive FailCause where
  | none | handshakeMismatch | linkTimeout | malformedSelection | confirmMismatch
deriving DecidableEq, Repr

/-- R57: the two name fields of the trailer. -/
inductive NameField where
  | nickname | otName
deriving DecidableEq, Repr

/-- R139: the four stored individual values; HP is not one of them. -/
inductive IvName where
  | attack | defense | speed | special
deriving DecidableEq, Repr

/-- R29: the 29 core fields of a party record, each with its width. -/
structure CoreRecord where
  speciesId : Byte
  currentHp : Half
  maxHp : Half
  attack : Half
  defense : Half
  speed : Half
  special : Half
  level : Byte
  levelInBox : Byte
  statusCondition : Byte
  type1 : Byte
  type2 : Byte
  catchRateOrHeldItem : Byte
  move1 : Byte
  move2 : Byte
  move3 : Byte
  move4 : Byte
  pp1 : Byte
  pp2 : Byte
  pp3 : Byte
  pp4 : Byte
  otId : Half
  expPoints : Triple
  hpEv : Half
  attackEv : Half
  defenseEv : Half
  speedEv : Half
  specialEv : Half
  ivData : Half
deriving DecidableEq, Repr

/-- R29: the typed view of a slot. The names are byte sequences; `PartyRecord.wf` says that they have
their fields' lengths, 11 and 7. -/
structure PartyRecord where
  core : CoreRecord
  nickname : List Byte
  otName : List Byte
deriving DecidableEq, Repr

/-- R26: a species template; it holds level-1 stat values, no formula. -/
structure SpeciesTemplate where
  speciesId : Byte
  type1 : Byte
  type2 : Byte
  catchRateOrHeldItem : Byte
  hpL1 : Half
  attackL1 : Half
  defenseL1 : Half
  speedL1 : Half
  specialL1 : Half
  move1 : Byte
  move2 : Byte
  move3 : Byte
  move4 : Byte
  pp1 : BitVec 6
  pp2 : BitVec 6
  pp3 : BitVec 6
  pp4 : BitVec 6
  nickContent : List Byte
deriving DecidableEq, Repr

/-- R26, R27: the configuration inputs, which the block reads in the `CMD_TRADE` step only. -/
structure ConfigInputs where
  template : SpeciesTemplate
  trainerName : List Byte
  trainerId : Half
deriving DecidableEq, Repr

/-- R28: the transport configuration, five opaque values that no rule of the block reads. Each opaque
value is named by a natural number (DESIGN CHOICE, log entry 9: the spec gives no width). -/
structure LinkConfig where
  role : Nat
  clockPin : Nat
  dataOutPin : Nat
  dataInPin : Nat
  bitRate : Nat
deriving DecidableEq, Repr

/-- One constructor for each row of spec/opcode_table.json. Codec operations carry the values they are
applied to (R120); an engine step carries the received byte, decoded as its phase decodes it (R96). -/
inductive Instr where
  /-- `CMD_TRADE`, R221: the command byte `'t'`. -/
  | cmdTrade
  /-- `CMD_HELP`, R222: the command byte `'h'`. -/
  | cmdHelp
  /-- `CMD_NOP`, R223: any other command byte. -/
  | cmdNop (opcode : Byte)
  /-- `CMD_WHILE_BUSY`, R225: any command byte offered while busy. -/
  | cmdWhileBusy (opcode : Byte)
  /-- `HS_MODE`, R182. -/
  | hsMode (code : Byte)
  /-- `HS_MASTER`, R183. -/
  | hsMaster (code : Byte)
  /-- `HS_VERSION`, R184. -/
  | hsVersion (code : Byte)
  /-- `ENTROPY`, R185: the received fill byte. -/
  | entropy (fill : Byte)
  /-- `METADATA`, R186: one byte of the peer's stream. -/
  | metadata (rx : Byte)
  /-- `SELECT`, R187: the received selection byte. -/
  | select (selection : Byte)
  /-- `RECORD`, R188: one byte of the peer's core block. -/
  | record (rx : Byte)
  /-- `CONFIRM`, R189. -/
  | confirm (code : Byte)
  /-- `TIMEOUT_ANY`, R190. -/
  | timeoutAny
  /-- `CONFIGURE`, R161. -/
  | configure (c : LinkConfig)
  /-- `XCHG`, R162: the exchange the block issues, with its answer. -/
  | xchg (tx : Byte) (ans : Answer)
  /-- `LE16_GET`, R122. -/
  | le16Get (b : List Byte) (o : Nat)
  /-- `LE16_PUT`, R123. -/
  | le16Put (b : List Byte) (o : Nat) (v : Half)
  /-- `EXP_GET`, R124. -/
  | expGet (b : List Byte) (o : Nat)
  /-- `EXP_PUT`, R125. -/
  | expPut (b : List Byte) (o : Nat) (v : Triple)
  /-- `FIELD_GET`, R126. -/
  | fieldGet (b : List Byte) (f : CoreField)
  /-- `FIELD_PUT`, R126: `v` is a value of the field's width. -/
  | fieldPut (b : List Byte) (f : CoreField) (v : Nat)
  /-- `ENC_CORE`, R127. -/
  | encCore (r : PartyRecord)
  /-- `DEC_CORE`, R128. -/
  | decCore (b : List Byte)
  /-- `PAD_STRING`, R130: the slot length is that of a name field, 11 or 7. -/
  | padString (c : List Byte) (l : NameField)
  /-- `SET_NAME`, R131. -/
  | setName (r : PartyRecord) (f : NameField) (c : List Byte)
  /-- `ENC_TRAILER`, R131. -/
  | encTrailer (r : PartyRecord)
  /-- `DEC_TRAILER`, R132. -/
  | decTrailer (t : List Byte)
  /-- `CONTENT`, R137. -/
  | content (f : List Byte)
  /-- `ENC_SLOT`, R138. -/
  | encSlot (r : PartyRecord)
  /-- `DEC_SLOT`, R138. -/
  | decSlot (b : List Byte)
  /-- `IV_HP`, R133. -/
  | ivHp (w : Half)
  /-- `PP_PACK`, R134. -/
  | ppPack (ups : BitVec 2) (cur : BitVec 6)
  /-- `PP_GET_CUR`, R135. -/
  | ppGetCur (b : Byte)
  /-- `PP_GET_UPS`, R136. -/
  | ppGetUps (b : Byte)
  /-- `IV_GET`, R139. -/
  | ivGet (which : IvName) (w : Half)
  /-- `IV_PACK`, R140. -/
  | ivPack (a d s c : BitVec 4)
  /-- `BUILD_L1`, R145. -/
  | buildL1 (tpl : SpeciesTemplate) (name : List Byte) (id : Half)
  /-- `META_OUT`, R146. -/
  | metaOut (b : List Byte)
  /-- `FIELD.speciesId`, R126: read the field from a core block or a slot. -/
  | fieldSpeciesId (b : List Byte)
  /-- `FIELD.currentHp`, R126: read the field from a core block or a slot. -/
  | fieldCurrentHp (b : List Byte)
  /-- `FIELD.maxHp`, R126: read the field from a core block or a slot. -/
  | fieldMaxHp (b : List Byte)
  /-- `FIELD.attack`, R126: read the field from a core block or a slot. -/
  | fieldAttack (b : List Byte)
  /-- `FIELD.defense`, R126: read the field from a core block or a slot. -/
  | fieldDefense (b : List Byte)
  /-- `FIELD.speed`, R126: read the field from a core block or a slot. -/
  | fieldSpeed (b : List Byte)
  /-- `FIELD.special`, R126: read the field from a core block or a slot. -/
  | fieldSpecial (b : List Byte)
  /-- `FIELD.level`, R126: read the field from a core block or a slot. -/
  | fieldLevel (b : List Byte)
  /-- `FIELD.levelInBox`, R126: read the field from a core block or a slot. -/
  | fieldLevelInBox (b : List Byte)
  /-- `FIELD.statusCondition`, R126: read the field from a core block or a slot. -/
  | fieldStatusCondition (b : List Byte)
  /-- `FIELD.type1`, R126: read the field from a core block or a slot. -/
  | fieldType1 (b : List Byte)
  /-- `FIELD.type2`, R126: read the field from a core block or a slot. -/
  | fieldType2 (b : List Byte)
  /-- `FIELD.catchRateOrHeldItem`, R126: read the field from a core block or a slot. -/
  | fieldCatchRateOrHeldItem (b : List Byte)
  /-- `FIELD.move1`, R126: read the field from a core block or a slot. -/
  | fieldMove1 (b : List Byte)
  /-- `FIELD.move2`, R126: read the field from a core block or a slot. -/
  | fieldMove2 (b : List Byte)
  /-- `FIELD.move3`, R126: read the field from a core block or a slot. -/
  | fieldMove3 (b : List Byte)
  /-- `FIELD.move4`, R126: read the field from a core block or a slot. -/
  | fieldMove4 (b : List Byte)
  /-- `FIELD.pp1`, R126: read the field from a core block or a slot. -/
  | fieldPp1 (b : List Byte)
  /-- `FIELD.pp2`, R126: read the field from a core block or a slot. -/
  | fieldPp2 (b : List Byte)
  /-- `FIELD.pp3`, R126: read the field from a core block or a slot. -/
  | fieldPp3 (b : List Byte)
  /-- `FIELD.pp4`, R126: read the field from a core block or a slot. -/
  | fieldPp4 (b : List Byte)
  /-- `FIELD.otId`, R126: read the field from a core block or a slot. -/
  | fieldOtId (b : List Byte)
  /-- `FIELD.expPoints`, R126: read the field from a core block or a slot. -/
  | fieldExpPoints (b : List Byte)
  /-- `FIELD.hpEv`, R126: read the field from a core block or a slot. -/
  | fieldHpEv (b : List Byte)
  /-- `FIELD.attackEv`, R126: read the field from a core block or a slot. -/
  | fieldAttackEv (b : List Byte)
  /-- `FIELD.defenseEv`, R126: read the field from a core block or a slot. -/
  | fieldDefenseEv (b : List Byte)
  /-- `FIELD.speedEv`, R126: read the field from a core block or a slot. -/
  | fieldSpeedEv (b : List Byte)
  /-- `FIELD.specialEv`, R126: read the field from a core block or a slot. -/
  | fieldSpecialEv (b : List Byte)
  /-- `FIELD.ivData`, R126: read the field from a core block or a slot. -/
  | fieldIvData (b : List Byte)
  /-- `FIELD.nickname`, R132: read the name field from a trailer or a slot. -/
  | fieldNickname (b : List Byte)
  /-- `FIELD.otName`, R132: read the name field from a trailer or a slot. -/
  | fieldOtName (b : List Byte)
deriving DecidableEq, Repr

/-- One operand of an operation call. The spec gives these operations no bit pattern (R102); the operand
list is the model's own notation (DESIGN CHOICE, log entry 7). A number is untyped here: the decoder
checks it against the operand's width (R121). -/
inductive Operand where
  | num (n : Nat)
  | bytes (b : List Byte)
  | field (f : CoreField)
  | name (f : NameField)
  | iv (w : IvName)
  | answer (a : Answer)
  | record (r : PartyRecord)
  | template (t : SpeciesTemplate)
deriving DecidableEq, Repr

/-- What arrives at the block, undecoded: the trace notation of R100 with the two events the spec
describes outside it. -/
inductive Input where
  /-- `CMD` of R100: what the host command channel offers; an `F-CMD` command is one byte (R98). -/
  | host (bytes : List Byte)
  /-- `XCHG rx` and `XCHG timeout` of R100: the answer of the pending exchange. -/
  | answer (a : Answer)
  /-- A call of an operation that no byte selects (R102): the row of spec/opcode_table.json it stands
  in, counted from 0, and its operands. -/
  | call (row : Nat) (args : List Operand)
  /-- R64: the environment changes the configuration inputs. -/
  | config (c : ConfigInputs)
  /-- R270, R271: the reset event. -/
  | reset
deriving DecidableEq, Repr

end Sys2Proof
end

