-- ==== Sys2Proof/Machine/Flags.lean ====
section
/-! DEFINITION. The flags of the block (spec/10_state.md R22, R25, R30). They are functions of the phase
register `st` and of the failure cause register `err`, not registers of their own. -/

namespace Sys2Proof

/-- R30 `busy`: the engine is in a phase from Handshake to Confirm. -/
def Phase.busy : Phase → Bool
  | .idle | .complete | .failed => false
  | .hsMode | .hsMaster | .hsVersion | .entropy | .metadata | .select | .record | .confirm => true

/-- R30 `done`. -/
def Phase.done (p : Phase) : Bool := p == .complete

/-- R30 `failed`. -/
def Phase.hasFailed (p : Phase) : Bool := p == .failed

/-- R30 `idle`. -/
def Phase.isIdle (p : Phase) : Bool := p == .idle

/-- R30 `accepting = not busy`. -/
def Phase.accepting (p : Phase) : Bool := !p.busy

/-- R22: the numeric code of a phase, for a debug read-out. -/
def Phase.code : Phase → Nat
  | .idle => 0
  | .hsMode => 1
  | .hsMaster => 2
  | .hsVersion => 3
  | .entropy => 4
  | .metadata => 5
  | .select => 6
  | .record => 7
  | .confirm => 8
  | .complete => 9
  | .failed => 10

/-- R25: the numeric code of a failure cause. -/
def FailCause.code : FailCause → Nat
  | .none => 0
  | .handshakeMismatch => 1
  | .linkTimeout => 2
  | .malformedSelection => 3
  | .confirmMismatch => 4

end Sys2Proof
end

