-- ==== Sys2Proof/Machine/Layout.lean ====
section
/-! DEFINITION. The byte spaces of a record slot (spec/20_memory.md R50, R51, R56, R57): field widths,
the layout table, and where the name fields stand. -/

namespace Sys2Proof

/-- R29: the bytes a core field occupies, its width over 8. -/
def CoreField.bytes : CoreField → Nat
  | .speciesId | .level | .levelInBox | .statusCondition | .type1 | .type2 => 1
  | .catchRateOrHeldItem | .move1 | .move2 | .move3 | .move4 => 1
  | .pp1 | .pp2 | .pp3 | .pp4 => 1
  | .currentHp | .maxHp | .attack | .defense | .speed | .special | .otId => 2
  | .hpEv | .attackEv | .defenseEv | .speedEv | .specialEv | .ivData => 2
  | .expPoints => 3

/-- R29: the width of a core field in bits: 8, 16 or 24. -/
def CoreField.width (f : CoreField) : Nat := 8 * f.bytes

/-- R29: the 29 core fields in the order of the list. -/
def CoreField.all : List CoreField :=
  [.speciesId, .currentHp, .maxHp, .attack, .defense, .speed, .special, .level, .levelInBox,
   .statusCondition, .type1, .type2, .catchRateOrHeldItem] ++
  [.move1, .move2, .move3, .move4, .pp1, .pp2, .pp3, .pp4] ++
  [.otId, .expPoints, .hpEv, .attackEv, .defenseEv, .speedEv, .specialEv, .ivData]

/-- R56: `off(f)` under a layout. -/
def Layout.off (l : Layout) (f : CoreField) : Nat := (l.lookup f).getD 0

/-- R56: the offsets the 29 field ranges occupy, field by field. -/
def Layout.spots (l : Layout) : List Nat :=
  CoreField.all.flatMap fun f => (List.range f.bytes).map (l.off f + ·)

/-- R56: a layout is valid when the 29 ranges are pairwise disjoint and together cover 0..43 exactly:
the ranges have 44 bytes in all, and every offset of the core block stands in exactly one of them. -/
def Layout.valid (l : Layout) : Bool :=
  (List.range coreLen).all fun k => l.spots.count k == 1

/-- R56 `LAYOUT_LIST`, the default layout: the fields in the listed order with no padding. -/
def layoutList : Layout :=
  [(.speciesId, 0), (.currentHp, 1), (.maxHp, 3), (.attack, 5), (.defense, 7), (.speed, 9),
   (.special, 11), (.level, 13), (.levelInBox, 14), (.statusCondition, 15)] ++
  [(.type1, 16), (.type2, 17), (.catchRateOrHeldItem, 18), (.move1, 19), (.move2, 20),
   (.move3, 21), (.move4, 22), (.pp1, 23), (.pp2, 24), (.pp3, 25), (.pp4, 26)] ++
  [(.otId, 27), (.expPoints, 29), (.hpEv, 32), (.attackEv, 34), (.defenseEv, 36),
   (.speedEv, 38), (.specialEv, 40), (.ivData, 42)]

/-- spec/93_implementation_defined.md G1 `LAYOUT_GEN1`, the alternative layout a model may instantiate;
nothing in the model uses it by default. -/
def layoutGen1 : Layout :=
  [(.speciesId, 0), (.currentHp, 1), (.levelInBox, 3), (.statusCondition, 4), (.type1, 5),
   (.type2, 6), (.catchRateOrHeldItem, 7), (.move1, 8), (.move2, 9), (.move3, 10)] ++
  [(.move4, 11), (.otId, 12), (.expPoints, 14), (.hpEv, 17), (.attackEv, 19), (.defenseEv, 21),
   (.speedEv, 23), (.specialEv, 25), (.ivData, 27), (.pp1, 29), (.pp2, 30), (.pp3, 31)] ++
  [(.pp4, 32), (.level, 33), (.maxHp, 34), (.attack, 36), (.defense, 38), (.speed, 40),
   (.special, 42)]

/-- R87: the slot length `L` of a name field. -/
def NameField.len : NameField → Nat
  | .nickname => nickLen
  | .otName => otNameLen

/-- R57: the offset of a name field inside the 18-byte trailer. -/
def NameField.trailerOff : NameField → Nat
  | .nickname => 0
  | .otName => nickLen

/-- R51: the offset of a name field inside the 62-byte slot. -/
def NameField.slotOff (f : NameField) : Nat := coreLen + f.trailerOff

end Sys2Proof
end

