-- ==== Sys2Proof/Machine/Operands.lean ====
section
/-! DEFINITION. Operand assembly (spec/30_encoding.md R84 to R87, spec/40_codec.md R122 to R140): the
little-endian word serializers, the field accessors, the packed sub-fields and the name fields. Every
function is total and reads only its operands (R120). -/

namespace Sys2Proof

/-! ### Byte arrays -/

/-- R9: `s[a..a+n-1]`, the `n` bytes of `s` from offset `a`. -/
def slice (s : List Byte) (a n : Nat) : List Byte := (s.drop a).take n

/-- R10 `MemRead`: `n` bytes of `b` from offset `o`, assembled little-endian. -/
def memRead (b : List Byte) (o : Nat) : Nat → Nat
  | 0 => 0
  | n + 1 => (b.getD o 0).toNat + 256 * memRead b (o + 1) n

/-- R10 `MemWrite`: byte `o+k` of `b` becomes `v[8k+7:8k]` for `k` below `n`. -/
def memWrite (b : List Byte) (o : Nat) : Nat → Nat → List Byte
  | 0, _ => b
  | n + 1, v => memWrite (b.set o (BitVec.ofNat 8 v)) (o + 1) n (v / 256)

/-! ### Word serializers -/

/-- R122 `LE16_GET`. -/
def le16Get (b : List Byte) (o : Nat) : Half := BitVec.ofNat 16 (memRead b o 2)

/-- R123 `LE16_PUT`. -/
def le16Put (b : List Byte) (o : Nat) (v : Half) : List Byte := memWrite b o 2 v.toNat

/-- R124 `EXP_GET`. -/
def expGet (b : List Byte) (o : Nat) : Triple := BitVec.ofNat 24 (memRead b o 3)

/-- R125 `EXP_PUT`. -/
def expPut (b : List Byte) (o : Nat) (v : Triple) : List Byte := memWrite b o 3 v.toNat

/-- R126 `FIELD_GET`, the unsigned value. -/
def fieldGet (l : Layout) (b : List Byte) (f : CoreField) : Nat := memRead b (l.off f) f.bytes

/-- R126 `FIELD_PUT`. -/
def fieldPut (l : Layout) (b : List Byte) (f : CoreField) (v : Nat) : List Byte :=
  memWrite b (l.off f) f.bytes v

/-! ### Packed sub-fields -/

/-- R134 `PP_PACK`: `{ups[1:0], cur[5:0]}`. -/
def ppPack (ups : BitVec 2) (cur : BitVec 6) : Byte := ups ++ cur

/-- R135 `PP_GET_CUR`: `b[5:0]`. -/
def ppGetCur (b : Byte) : BitVec 6 := b.extractLsb' 0 6

/-- R136 `PP_GET_UPS`: `b[7:6]`. -/
def ppGetUps (b : Byte) : BitVec 2 := b.extractLsb' 6 2

/-- R139 `IV_GET`: Attack 15:12, Defense 11:8, Speed 7:4, Special 3:0. -/
def ivGet (which : IvName) (w : Half) : BitVec 4 :=
  match which with
  | .attack => w.extractLsb' 12 4
  | .defense => w.extractLsb' 8 4
  | .speed => w.extractLsb' 4 4
  | .special => w.extractLsb' 0 4

/-- R140 `IV_PACK`: `{a, d, s, c}`. -/
def ivPack (a d s c : BitVec 4) : Half := a ++ d ++ s ++ c

/-- R133 `IV_HP`: `{w[12], w[8], w[4], w[0]}`. -/
def ivHp (w : Half) : BitVec 4 :=
  w.extractLsb' 12 1 ++ w.extractLsb' 8 1 ++ w.extractLsb' 4 1 ++ w.extractLsb' 0 1

/-! ### Name fields -/

/-- R130 `PAD_STRING`: the first `min(len, L-1)` content bytes, then sentinels up to `L` bytes. -/
def padString (c : List Byte) (l : Nat) : List Byte :=
  let n := min c.length (l - 1)
  c.take n ++ List.replicate (l - n) sentinel

/-- R137 `CONTENT`: the bytes before the first sentinel, all of them if there is none. -/
def content (f : List Byte) : List Byte := f.takeWhile (· != sentinel)

end Sys2Proof
end

