-- ==== Sys2Proof/WellFormed.lean ====
section
/-! DEFINITION. What makes an operation well formed (spec/40_codec.md R121, spec/93_implementation_defined.md U21): operands are
typed, a block has its block's length and a value fits its field; a case that is not so cannot be
formed. The block has no other ill-formed operation (spec/30_encoding.md R97). -/

namespace Sys2Proof

/-- R29: the name fields of a record have 11 and 7 bytes. -/
def PartyRecord.wf (r : PartyRecord) : Bool :=
  r.nickname.length == nickLen && r.otName.length == otNameLen

/-- R126: a field accessor works on a 44-byte array or on the first 44 bytes of a slot. -/
def isCoreArray (b : List Byte) : Bool := b.length == coreLen || b.length == slotLen

/-- R57, R51: a name field is read from an 18-byte trailer or from a 62-byte slot. -/
def isTrailerArray (b : List Byte) : Bool := b.length == trailerLen || b.length == slotLen

/-- R121: the operation's operands have their types. -/
def Instr.wf : Instr → Bool
  | .cmdTrade | .cmdHelp => true
  | .cmdNop b => b != tradeByte && b != helpByte
  | .cmdWhileBusy _ => true
  | .hsMode _ | .hsMaster _ | .hsVersion _ | .entropy _ | .metadata _ => true
  | .select _ | .record _ | .confirm _ | .timeoutAny => true
  | .configure _ | .xchg _ _ => true
  | .le16Get b o | .le16Put b o _ => decide (o + 1 < b.length)
  | .expGet b o | .expPut b o _ => decide (o + 2 < b.length)
  | .fieldGet b _ => isCoreArray b
  | .fieldPut b f v => isCoreArray b && decide (v < 2 ^ f.width)
  | .encCore r | .encTrailer r | .encSlot r | .setName r _ _ => r.wf
  | .decCore b => b.length == coreLen
  | .padString _ _ => true
  | .decTrailer t => t.length == trailerLen
  | .content f => f.length == nickLen || f.length == otNameLen
  | .decSlot b | .metaOut b => b.length == slotLen
  | .ivHp _ | .ppPack _ _ | .ppGetCur _ | .ppGetUps _ | .ivGet _ _ | .ivPack _ _ _ _ => true
  | .buildL1 _ _ _ => true
  | .fieldSpeciesId b | .fieldCurrentHp b | .fieldMaxHp b | .fieldAttack b => isCoreArray b
  | .fieldDefense b | .fieldSpeed b | .fieldSpecial b | .fieldLevel b => isCoreArray b
  | .fieldLevelInBox b | .fieldStatusCondition b | .fieldType1 b => isCoreArray b
  | .fieldType2 b | .fieldCatchRateOrHeldItem b | .fieldMove1 b | .fieldMove2 b => isCoreArray b
  | .fieldMove3 b | .fieldMove4 b | .fieldPp1 b | .fieldPp2 b | .fieldPp3 b => isCoreArray b
  | .fieldPp4 b | .fieldOtId b | .fieldExpPoints b | .fieldHpEv b | .fieldAttackEv b => isCoreArray b
  | .fieldDefenseEv b | .fieldSpeedEv b | .fieldSpecialEv b | .fieldIvData b => isCoreArray b
  | .fieldNickname b | .fieldOtName b => isTrailerArray b

end Sys2Proof
end

