-- ==== Sys2Proof/Decode.lean ====
section
/-! DEFINITION. The decoder (spec/30_encoding.md R81, R84, R85, R90 to R102) and, after it, the encoder.
A command byte is decoded by R81, an exchange answer against the current phase by R96; an operation
that no byte selects (R102) is called by its row of spec/opcode_table.json. Decoding is total and
rejects by name. -/

namespace Sys2Proof

/-- Why something that arrives is no operation. The block itself has no illegal encoding (R97): each of
these is a case the spec says cannot be formed or has no step. -/
inductive DecodeError where
  /-- R98: a command is always one byte. -/
  | commandLength
  /-- R181, R191, U25: an exchange answer where no exchange is pending. -/
  | noExchangePending
  /-- No row of the table that is called has this number. -/
  | unknownRow
  /-- R121: the operands are not of the operation's kinds. -/
  | operandForm
  /-- R121, U21: a value wider than its field, a block of another length, an offset outside the array. -/
  | operandIllTyped
  /-- A configuration change or a reset: an event, not an operation. -/
  | notAnOperation
deriving DecidableEq, Repr

/-! ### Command bytes and wire bytes -/

/-- R81 `F-CMD`: the operation of a command byte that is accepted. -/
def decodeCommand (b : Byte) : Instr :=
  if b = tradeByte then .cmdTrade
  else if b = helpByte then .cmdHelp
  else .cmdNop b

/-- R98, R220, R225: what the host offers is one byte; while busy it is not accepted. -/
def decodeHost (st : Phase) : List Byte → Except DecodeError Instr
  | [b] => .ok (if st.busy then .cmdWhileBusy b else decodeCommand b)
  | _ => .error .commandLength

/-- R96: the received byte is decoded against the current phase; a timeout is a timeout in any of
them. -/
def decodeAnswer (st : Phase) (a : Answer) : Except DecodeError Instr :=
  match st, a with
  | .idle, _ | .complete, _ | .failed, _ => .error .noExchangePending
  | .hsMode, .byte rx => .ok (.hsMode rx)
  | .hsMaster, .byte rx => .ok (.hsMaster rx)
  | .hsVersion, .byte rx => .ok (.hsVersion rx)
  | .entropy, .byte rx => .ok (.entropy rx)
  | .metadata, .byte rx => .ok (.metadata rx)
  | .select, .byte rx => .ok (.select rx)
  | .record, .byte rx => .ok (.record rx)
  | .confirm, .byte rx => .ok (.confirm rx)
  | .hsMode, .timeout | .hsMaster, .timeout | .hsVersion, .timeout | .entropy, .timeout => .ok .timeoutAny
  | .metadata, .timeout | .select, .timeout | .record, .timeout | .confirm, .timeout => .ok .timeoutAny

/-! ### Operation calls -/

/-- R121: a number is a value of `w` bits, or it is refused; it is never wrapped. -/
def sized (w n : Nat) (k : BitVec w → Instr) : Except DecodeError Instr :=
  if n < 2 ^ w then .ok (k (BitVec.ofNat w n)) else .error .operandIllTyped

/-- An operation whose one operand is a byte array. -/
def oneArray (k : List Byte → Instr) : List Operand → Except DecodeError Instr
  | [.bytes b] => .ok (k b)
  | _ => .error .operandForm

/-- An operation whose one operand is a party record. -/
def oneRecord (k : PartyRecord → Instr) : List Operand → Except DecodeError Instr
  | [.record r] => .ok (k r)
  | _ => .error .operandForm

/-- An operation whose one operand is a word of `w` bits. -/
def oneWord (w : Nat) (k : BitVec w → Instr) : List Operand → Except DecodeError Instr
  | [.num n] => sized w n k
  | _ => .error .operandForm

/-- `CONFIGURE`, R161. -/
def parseConfigure : List Operand → Except DecodeError Instr
  | [.num r, .num c, .num o, .num i, .num b] => .ok (.configure ⟨r, c, o, i, b⟩)
  | _ => .error .operandForm

/-- `XCHG`, R162. -/
def parseXchg : List Operand → Except DecodeError Instr
  | [.num tx, .answer a] => sized 8 tx fun t => .xchg t a
  | _ => .error .operandForm

/-- `LE16_GET` and `EXP_GET`, R122, R124. -/
def parseGet (k : List Byte → Nat → Instr) : List Operand → Except DecodeError Instr
  | [.bytes b, .num o] => .ok (k b o)
  | _ => .error .operandForm

/-- `LE16_PUT` and `EXP_PUT`, R123, R125. -/
def parsePut (w : Nat) (k : List Byte → Nat → BitVec w → Instr) :
    List Operand → Except DecodeError Instr
  | [.bytes b, .num o, .num v] => sized w v fun x => k b o x
  | _ => .error .operandForm

/-- `FIELD_GET`, R126. -/
def parseFieldGet : List Operand → Except DecodeError Instr
  | [.bytes b, .field f] => .ok (.fieldGet b f)
  | _ => .error .operandForm

/-- `FIELD_PUT`, R126. -/
def parseFieldPut : List Operand → Except DecodeError Instr
  | [.bytes b, .field f, .num v] => .ok (.fieldPut b f v)
  | _ => .error .operandForm

/-- `PAD_STRING`, R130. -/
def parsePadString : List Operand → Except DecodeError Instr
  | [.bytes c, .name l] => .ok (.padString c l)
  | _ => .error .operandForm

/-- `SET_NAME`, R131. -/
def parseSetName : List Operand → Except DecodeError Instr
  | [.record r, .name f, .bytes c] => .ok (.setName r f c)
  | _ => .error .operandForm

/-- `IV_GET`, R139. -/
def parseIvGet : List Operand → Except DecodeError Instr
  | [.iv which, .num w] => sized 16 w fun x => .ivGet which x
  | _ => .error .operandForm

/-- `BUILD_L1`, R145. -/
def parseBuildL1 : List Operand → Except DecodeError Instr
  | [.template t, .bytes name, .num id] => sized 16 id fun x => .buildL1 t name x
  | _ => .error .operandForm

/-- The operation of a row that is called, with its operands; the packed operands of `PP_PACK` and
`IV_PACK` stand in the row's bit pattern, `uucccccc` and `aaaaddddsssscccc` (R84, R85). -/
def parseCall (row : Nat) (args : List Operand) : Except DecodeError Instr :=
  match row with
  | 13 => parseConfigure args
  | 14 => parseXchg args
  | 15 => parseGet .le16Get args
  | 16 => parsePut 16 .le16Put args
  | 17 => parseGet .expGet args
  | 18 => parsePut 24 .expPut args
  | 19 => parseFieldGet args
  | 20 => parseFieldPut args
  | 21 => oneRecord .encCore args
  | 22 => oneArray .decCore args
  | 23 => parsePadString args
  | 24 => parseSetName args
  | 25 => oneRecord .encTrailer args
  | 26 => oneArray .decTrailer args
  | 27 => oneArray .content args
  | 28 => oneRecord .encSlot args
  | 29 => oneArray .decSlot args
  | 30 => oneWord 16 .ivHp args
  | 31 => oneWord 8 (fun b => .ppPack (ppGetUps b) (ppGetCur b)) args
  | 32 => oneWord 8 .ppGetCur args
  | 33 => oneWord 8 .ppGetUps args
  | 34 => parseIvGet args
  | 35 => oneWord 16 (fun w => .ivPack (ivGet .attack w) (ivGet .defense w) (ivGet .speed w) (ivGet .special w)) args
  | 36 => parseBuildL1 args
  | 37 => oneArray .metaOut args
  | 38 => oneArray .fieldSpeciesId args
  | 39 => oneArray .fieldCurrentHp args
  | 40 => oneArray .fieldMaxHp args
  | 41 => oneArray .fieldAttack args
  | 42 => oneArray .fieldDefense args
  | 43 => oneArray .fieldSpeed args
  | 44 => oneArray .fieldSpecial args
  | 45 => oneArray .fieldLevel args
  | 46 => oneArray .fieldLevelInBox args
  | 47 => oneArray .fieldStatusCondition args
  | 48 => oneArray .fieldType1 args
  | 49 => oneArray .fieldType2 args
  | 50 => oneArray .fieldCatchRateOrHeldItem args
  | 51 => oneArray .fieldMove1 args
  | 52 => oneArray .fieldMove2 args
  | 53 => oneArray .fieldMove3 args
  | 54 => oneArray .fieldMove4 args
  | 55 => oneArray .fieldPp1 args
  | 56 => oneArray .fieldPp2 args
  | 57 => oneArray .fieldPp3 args
  | 58 => oneArray .fieldPp4 args
  | 59 => oneArray .fieldOtId args
  | 60 => oneArray .fieldExpPoints args
  | 61 => oneArray .fieldHpEv args
  | 62 => oneArray .fieldAttackEv args
  | 63 => oneArray .fieldDefenseEv args
  | 64 => oneArray .fieldSpeedEv args
  | 65 => oneArray .fieldSpecialEv args
  | 66 => oneArray .fieldIvData args
  | 67 => oneArray .fieldNickname args
  | 68 => oneArray .fieldOtName args
  | _ => .error .unknownRow

/-- R121: the operation a call names, if its operands are typed. -/
def decodeCall (row : Nat) (args : List Operand) : Except DecodeError Instr :=
  match parseCall row args with
  | .ok i => if i.wf then .ok i else .error .operandIllTyped
  | .error e => .error e

/-! ### The decoder -/

/-- The operation that something arriving at the block selects in phase `st`, or why there is none. -/
def decode (st : Phase) : Input → Except DecodeError Instr
  | .host bytes => decodeHost st bytes
  | .answer a => decodeAnswer st a
  | .call row args => decodeCall row args
  | .config _ => .error .notAnOperation
  | .reset => .error .notAnOperation

/-! ### The encoder -/

/-- The phases in which a row of the table applies (its `selector`): a command row when not busy,
`CMD_WHILE_BUSY` and `TIMEOUT_ANY` when busy, an engine row in its phase, a called row in all. -/
def Instr.selectedIn (i : Instr) (st : Phase) : Bool :=
  match i with
  | .cmdTrade | .cmdHelp | .cmdNop _ => !st.busy
  | .cmdWhileBusy _ | .timeoutAny => st.busy
  | .hsMode _ => st == .hsMode
  | .hsMaster _ => st == .hsMaster
  | .hsVersion _ => st == .hsVersion
  | .entropy _ => st == .entropy
  | .metadata _ => st == .metadata
  | .select _ => st == .select
  | .record _ => st == .record
  | .confirm _ => st == .confirm
  | _ => true

/-- What arrives at the block when the operation is selected. -/
def encode : Instr → Input
  | .cmdTrade => .host [0x74]
  | .cmdHelp => .host [0x68]
  | .cmdNop b => .host [b]
  | .cmdWhileBusy b => .host [b]
  | .hsMode rx => .answer (.byte rx)
  | .hsMaster rx => .answer (.byte rx)
  | .hsVersion rx => .answer (.byte rx)
  | .entropy rx => .answer (.byte rx)
  | .metadata rx => .answer (.byte rx)
  | .select rx => .answer (.byte rx)
  | .record rx => .answer (.byte rx)
  | .confirm rx => .answer (.byte rx)
  | .timeoutAny => .answer .timeout
  | .configure c => .call 13 [.num c.role, .num c.clockPin, .num c.dataOutPin, .num c.dataInPin, .num c.bitRate]
  | .xchg tx a => .call 14 [.num tx.toNat, .answer a]
  | .le16Get b o => .call 15 [.bytes b, .num o]
  | .le16Put b o v => .call 16 [.bytes b, .num o, .num v.toNat]
  | .expGet b o => .call 17 [.bytes b, .num o]
  | .expPut b o v => .call 18 [.bytes b, .num o, .num v.toNat]
  | .fieldGet b f => .call 19 [.bytes b, .field f]
  | .fieldPut b f v => .call 20 [.bytes b, .field f, .num v]
  | .encCore r => .call 21 [.record r]
  | .decCore b => .call 22 [.bytes b]
  | .padString c l => .call 23 [.bytes c, .name l]
  | .setName r f c => .call 24 [.record r, .name f, .bytes c]
  | .encTrailer r => .call 25 [.record r]
  | .decTrailer t => .call 26 [.bytes t]
  | .content f => .call 27 [.bytes f]
  | .encSlot r => .call 28 [.record r]
  | .decSlot b => .call 29 [.bytes b]
  | .ivHp w => .call 30 [.num w.toNat]
  | .ppPack u c => .call 31 [.num (64 * u.toNat + c.toNat)]
  | .ppGetCur b => .call 32 [.num b.toNat]
  | .ppGetUps b => .call 33 [.num b.toNat]
  | .ivGet which w => .call 34 [.iv which, .num w.toNat]
  | .ivPack a d s c => .call 35 [.num (4096 * a.toNat + 256 * d.toNat + 16 * s.toNat + c.toNat)]
  | .buildL1 t name id => .call 36 [.template t, .bytes name, .num id.toNat]
  | .metaOut b => .call 37 [.bytes b]
  | .fieldSpeciesId b => .call 38 [.bytes b]
  | .fieldCurrentHp b => .call 39 [.bytes b]
  | .fieldMaxHp b => .call 40 [.bytes b]
  | .fieldAttack b => .call 41 [.bytes b]
  | .fieldDefense b => .call 42 [.bytes b]
  | .fieldSpeed b => .call 43 [.bytes b]
  | .fieldSpecial b => .call 44 [.bytes b]
  | .fieldLevel b => .call 45 [.bytes b]
  | .fieldLevelInBox b => .call 46 [.bytes b]
  | .fieldStatusCondition b => .call 47 [.bytes b]
  | .fieldType1 b => .call 48 [.bytes b]
  | .fieldType2 b => .call 49 [.bytes b]
  | .fieldCatchRateOrHeldItem b => .call 50 [.bytes b]
  | .fieldMove1 b => .call 51 [.bytes b]
  | .fieldMove2 b => .call 52 [.bytes b]
  | .fieldMove3 b => .call 53 [.bytes b]
  | .fieldMove4 b => .call 54 [.bytes b]
  | .fieldPp1 b => .call 55 [.bytes b]
  | .fieldPp2 b => .call 56 [.bytes b]
  | .fieldPp3 b => .call 57 [.bytes b]
  | .fieldPp4 b => .call 58 [.bytes b]
  | .fieldOtId b => .call 59 [.bytes b]
  | .fieldExpPoints b => .call 60 [.bytes b]
  | .fieldHpEv b => .call 61 [.bytes b]
  | .fieldAttackEv b => .call 62 [.bytes b]
  | .fieldDefenseEv b => .call 63 [.bytes b]
  | .fieldSpeedEv b => .call 64 [.bytes b]
  | .fieldSpecialEv b => .call 65 [.bytes b]
  | .fieldIvData b => .call 66 [.bytes b]
  | .fieldNickname b => .call 67 [.bytes b]
  | .fieldOtName b => .call 68 [.bytes b]

/-! ### The opcode table's words -/

/-- The bytes of a word of `nbits` bits, the least significant byte first. -/
def tableBytes (nbits w : Nat) : List Byte :=
  (List.range (nbits / 8)).map fun k => BitVec.ofNat 8 (w >>> (8 * k))

/-- The operation the decoder reads from a table word. The table's words are command bytes (R81): the
other rows have no pattern of fixed bits (R102), so a word selects one of `CMD_TRADE`, `CMD_HELP` and
`CMD_NOP`, as the block after reset reads it. -/
def decodeTableWord (nbits w : Nat) : Option Instr :=
  (decode .idle (.host (tableBytes nbits w))).toOption

end Sys2Proof
end

