-- ==== Sys2Proof/Machine/Record.lean ====
section
/-! DEFINITION. The record codec (spec/40_codec.md R127 to R138, R145, R146): core block, trailer and
slot to and from a party record, the level-1 record builder and the metadata stream. -/

namespace Sys2Proof

/-- R29: the value of a core field of a record, as an unsigned number. -/
def CoreRecord.val (r : CoreRecord) : CoreField → Nat
  | .speciesId => r.speciesId.toNat
  | .currentHp => r.currentHp.toNat
  | .maxHp => r.maxHp.toNat
  | .attack => r.attack.toNat
  | .defense => r.defense.toNat
  | .speed => r.speed.toNat
  | .special => r.special.toNat
  | .level => r.level.toNat
  | .levelInBox => r.levelInBox.toNat
  | .statusCondition => r.statusCondition.toNat
  | .type1 => r.type1.toNat
  | .type2 => r.type2.toNat
  | .catchRateOrHeldItem => r.catchRateOrHeldItem.toNat
  | .move1 => r.move1.toNat
  | .move2 => r.move2.toNat
  | .move3 => r.move3.toNat
  | .move4 => r.move4.toNat
  | .pp1 => r.pp1.toNat
  | .pp2 => r.pp2.toNat
  | .pp3 => r.pp3.toNat
  | .pp4 => r.pp4.toNat
  | .otId => r.otId.toNat
  | .expPoints => r.expPoints.toNat
  | .hpEv => r.hpEv.toNat
  | .attackEv => r.attackEv.toNat
  | .defenseEv => r.defenseEv.toNat
  | .speedEv => r.speedEv.toNat
  | .specialEv => r.specialEv.toNat
  | .ivData => r.ivData.toNat

/-- The record whose core fields are the numbers a function gives, each at its field's width. -/
def CoreRecord.ofVal (v : CoreField → Nat) : CoreRecord where
  speciesId := BitVec.ofNat 8 (v .speciesId)
  currentHp := BitVec.ofNat 16 (v .currentHp)
  maxHp := BitVec.ofNat 16 (v .maxHp)
  attack := BitVec.ofNat 16 (v .attack)
  defense := BitVec.ofNat 16 (v .defense)
  speed := BitVec.ofNat 16 (v .speed)
  special := BitVec.ofNat 16 (v .special)
  level := BitVec.ofNat 8 (v .level)
  levelInBox := BitVec.ofNat 8 (v .levelInBox)
  statusCondition := BitVec.ofNat 8 (v .statusCondition)
  type1 := BitVec.ofNat 8 (v .type1)
  type2 := BitVec.ofNat 8 (v .type2)
  catchRateOrHeldItem := BitVec.ofNat 8 (v .catchRateOrHeldItem)
  move1 := BitVec.ofNat 8 (v .move1)
  move2 := BitVec.ofNat 8 (v .move2)
  move3 := BitVec.ofNat 8 (v .move3)
  move4 := BitVec.ofNat 8 (v .move4)
  pp1 := BitVec.ofNat 8 (v .pp1)
  pp2 := BitVec.ofNat 8 (v .pp2)
  pp3 := BitVec.ofNat 8 (v .pp3)
  pp4 := BitVec.ofNat 8 (v .pp4)
  otId := BitVec.ofNat 16 (v .otId)
  expPoints := BitVec.ofNat 24 (v .expPoints)
  hpEv := BitVec.ofNat 16 (v .hpEv)
  attackEv := BitVec.ofNat 16 (v .attackEv)
  defenseEv := BitVec.ofNat 16 (v .defenseEv)
  speedEv := BitVec.ofNat 16 (v .speedEv)
  specialEv := BitVec.ofNat 16 (v .specialEv)
  ivData := BitVec.ofNat 16 (v .ivData)

/-- R127 `ENC_CORE`: put every core field into a 44-byte array. -/
def encCore (l : Layout) (r : CoreRecord) : List Byte :=
  CoreField.all.foldl (fun b f => fieldPut l b f (r.val f)) (List.replicate coreLen 0)

/-- R128 `DEC_CORE`: get every core field from a 44-byte array. -/
def decCore (l : Layout) (b : List Byte) : CoreRecord := CoreRecord.ofVal (fieldGet l b)

/-- R131 `SET_NAME`: `rec.field <- PAD_STRING(c, L)`. -/
def setName (r : PartyRecord) (f : NameField) (c : List Byte) : PartyRecord :=
  match f with
  | .nickname => { r with nickname := padString c nickLen }
  | .otName => { r with otName := padString c otNameLen }

/-- R131 `ENC_TRAILER`: nickname, then OT name; no padding is applied here. -/
def encTrailer (r : PartyRecord) : List Byte := r.nickname ++ r.otName

/-- R132 `DEC_TRAILER`, the nickname: `T[0..10]`, raw. -/
def decNickname (t : List Byte) : List Byte := slice t 0 nickLen

/-- R132 `DEC_TRAILER`, the OT name: `T[11..17]`, raw. -/
def decOtName (t : List Byte) : List Byte := slice t nickLen otNameLen

/-- R138 `ENC_SLOT`: core block, then trailer. -/
def encSlot (l : Layout) (r : PartyRecord) : List Byte := encCore l r.core ++ encTrailer r

/-- R138 `DEC_SLOT`: the core fields from `S[0..43]`, the names from `S[44..61]`. -/
def decSlot (l : Layout) (b : List Byte) : PartyRecord where
  core := decCore l (slice b 0 coreLen)
  nickname := decNickname (slice b coreLen trailerLen)
  otName := decOtName (slice b coreLen trailerLen)

/-- R145 `BUILD_L1`, the document's `buildLevel1Record`. -/
def buildL1 (tpl : SpeciesTemplate) (name : List Byte) (id : Half) : PartyRecord where
  core :=
    { speciesId := tpl.speciesId
      currentHp := tpl.hpL1
      maxHp := tpl.hpL1
      attack := tpl.attackL1
      defense := tpl.defenseL1
      speed := tpl.speedL1
      special := tpl.specialL1
      level := 1
      levelInBox := 1
      statusCondition := 0
      type1 := tpl.type1
      type2 := tpl.type2
      catchRateOrHeldItem := tpl.catchRateOrHeldItem
      move1 := tpl.move1
      move2 := tpl.move2
      move3 := tpl.move3
      move4 := tpl.move4
      pp1 := ppPack 0 tpl.pp1
      pp2 := ppPack 0 tpl.pp2
      pp3 := ppPack 0 tpl.pp3
      pp4 := ppPack 0 tpl.pp4
      otId := id
      expPoints := 0
      hpEv := 0
      attackEv := 0
      defenseEv := 0
      speedEv := 0
      specialEv := 0
      ivData := 0 }
  nickname := padString tpl.nickContent nickLen
  otName := padString name otNameLen

/-- R40: the template the document gives values for; its nickname content is empty. -/
def magikarp : SpeciesTemplate where
  speciesId := 0x81
  type1 := 0x15
  type2 := 0x15
  catchRateOrHeldItem := 0
  hpL1 := 11
  attackL1 := 5
  defenseL1 := 6
  speedL1 := 6
  specialL1 := 5
  move1 := 0x96
  move2 := 0
  move3 := 0
  move4 := 0
  pp1 := 40
  pp2 := 0
  pp3 := 0
  pp4 := 0
  nickContent := []

/-- R146 `META_OUT`: `S[55..61]`, the party size, `FIELD_GET(S, speciesId)`, `S[44..61]`. -/
def metaOut (l : Layout) (b : List Byte) : List Byte :=
  slice b NameField.otName.slotOff otNameLen ++ [BitVec.ofNat 8 partySize] ++
    [BitVec.ofNat 8 (fieldGet l b .speciesId)] ++ slice b coreLen trailerLen

end Sys2Proof
end

