-- ==== Sys2Proof/Machine/State.lean ====
section
/-! DEFINITION. The state of the machine. The first six fields are the architectural state of
spec/10_state.md R20, exactly; the others hold what the step is a function of besides (R32, R33: the
parameters, the configuration inputs, what the environment offers) and what the block puts out (R160,
R226). All of it is plain data. -/

namespace Sys2Proof.Machine

/-- A byte space as a list of (offset, byte) cells in one canonical form (`Memory.wf`): offsets strictly
rising and below 62, no cell equal to what an unlisted offset reads as, 0x00 (R36, R39). -/
abbrev Memory := List Host.Cell

/-- One exchange as the wire sees it: the byte the block transmits and the answer (R162). -/
structure Exchange where
  tx : Byte
  ans : Answer
deriving DecidableEq, Repr

/-- R226: how an attempt ended. -/
inductive Verdict where
  | complete
  | failed
deriving DecidableEq, Repr

/-- R101: the block's outputs to the host. -/
inductive Report where
  /-- `Help(HELP_TEXT)`. -/
  | help (text : List Byte)
  /-- `Result(Complete, NONE, RCV[0..61])` and `Result(Failed, err, RCV[0..61])`. -/
  | result (verdict : Verdict) (err : FailCause) (slot : List Byte)
deriving DecidableEq, Repr

/-- R120: the result of a codec operation, on the output of the datapath. -/
inductive Value where
  /-- An unsigned value of `w` bits. -/
  | bits (w : Nat) (v : BitVec w)
  /-- A byte sequence. -/
  | bytes (b : List Byte)
  /-- The 29 core fields. -/
  | core (c : CoreRecord)
  /-- A party record. -/
  | record (r : PartyRecord)
  /-- The two name fields of `DEC_TRAILER`. -/
  | names (nickname otName : List Byte)
deriving DecidableEq, Repr

/-- The machine. -/
structure State where
  /-- R20, R21: the Outgoing record slot, bytes 0..61. -/
  out : Memory
  /-- R20, R21: the Received record slot, bytes 0..61. -/
  rcv : Memory
  /-- R22: the phase register. -/
  st : Phase
  /-- R23: the byte counter. -/
  idx : Nat
  /-- R24: the retry counter. -/
  retry : Nat
  /-- R25: the failure cause. -/
  err : FailCause
  /-- R6, R32: the parameters, fixed for the life of the block; no step writes them. -/
  params : Params
  /-- R26, R27: the configuration inputs; the block reads them in the `CMD_TRADE` step only. -/
  config : ConfigInputs
  /-- R28, R161: the configuration the adapter has recorded, none before `CONFIGURE`. -/
  link : Option LinkConfig
  /-- R8, R100: what the environment does next, the first first. -/
  inputs : List Input
  /-- R33(b), R225: command bytes that stay with the host transport until the block is non-busy. -/
  held : List Byte
  /-- R8(4), R100 `FILL`: the fill bytes the entropy source supplies next. -/
  draws : List Byte
  /-- The model's own counter of free values: how many exchanges have drawn one (log entry 5). -/
  oracle : Nat
  /-- R162: the exchanges that have taken place, the first first (an observation; R32: the block keeps
  no record of them). -/
  wire : List Exchange
  /-- R226: the reports emitted, the first first. -/
  reports : List Report
  /-- R120: the output of the codec datapath, the result of the last codec operation. -/
  datapath : Option Value
deriving DecidableEq, Repr

/-- The machine never stops with a fault: the block has no "illegal operation" failure (R242), no
offset outside a space can be formed (R50), and its protocol failures are states, not stops (R244). -/
inductive Fault where
deriving DecidableEq, Repr

/-- Why a step has no meaning: the cases the spec says cannot be formed or have no step. -/
inductive Refusal where
  /-- An instruction that has no meaning yet. Raised by `exec`. Safe. -/
  | notModelled (mnemonic : String)
  /-- R181, U25: the pair of this state and this operation is not in the transition table. Raised by
  the engine steps. Safe. -/
  | noTransition
  /-- R162: the block does not issue this exchange in this state. Raised by `XCHG`. Safe. -/
  | exchangeNotIssued
  /-- R161: the spec gives no meaning to `CONFIGURE` while busy. Raised by `CONFIGURE`. Safe. -/
  | configureWhileBusy
  /-- R121, U21: the operands are not typed; the case cannot be formed. Raised by the codec
  operations. Safe. -/
  | operandIllTyped
  /-- R166: over a loopback the answers of a side's exchanges come from the link, not from its own
  environment. Raised by `State.ownStep`. Safe. -/
  | answerNotFromLink
  /-- What arrived is no operation. Raised by `step`. Safe. -/
  | undecodable (e : DecodeError)
deriving DecidableEq, Repr

/-- The parameters of the block after reset: the OPEN ones are free constants, the overridable ones
have the spec's defaults (R6, R56, R225). -/
def Params.initial : Params where
  layout := layoutList
  modeCode := Config.modeCode
  masterCode := Config.masterCode
  versionCode := Config.versionCode
  ackCode := Config.ackCode
  selBase := Config.selBase
  retryBudget := Config.retryBudget
  nEntropy := Config.nEntropyLessOne + 1
  wireTrailer := Config.wireTrailer
  busyPolicy := .hold
  helpText := Config.helpText

/-- The configuration inputs before the environment sets them: the template the spec gives values for
(R40), an empty name and id 0 (DESIGN CHOICE, log entry 4). -/
def ConfigInputs.initial : ConfigInputs where
  template := magikarp
  trainerName := []
  trainerId := 0

/-- The machine right after reset (R36, R270); `OUT` is all zeros (DESIGN CHOICE, log entry 3: the spec
leaves it unspecified), nothing is configured, nothing offered, nothing put out. -/
def State.reset : State where
  out := []
  rcv := []
  st := .idle
  idx := 0
  retry := 0
  err := .none
  params := Params.initial
  config := ConfigInputs.initial
  link := none
  inputs := []
  held := []
  draws := []
  oracle := 0
  wire := []
  reports := []
  datapath := none

end Sys2Proof.Machine
end

