-- ==== Sys2Proof/Machine/Ops.lean ====
section
/-! DEFINITION. The shared operations of the machine: byte access to the slots (spec/20_memory.md R50 to
R55), the exchange (spec/41_transport.md R162), reports (spec/43_dispatcher.md R226), entering and
leaving `FAILED` (spec/60_exceptions.md R244, R246), the handshake sub-step (spec/42_engine.md R182 to
R184) and the output of the codec datapath (spec/40_codec.md R120). -/

namespace Sys2Proof.Machine

/-! ### Slots -/

/-- R36, R39: what an unlisted offset of a slot reads as. -/
def Memory.unlisted : Byte := 0x00

/-- The byte at an offset; a read has no side effect (R55). -/
def Memory.read : Memory → Nat → Byte
  | [], _ => Memory.unlisted
  | (k, v) :: m, a => if k = a then v else Memory.read m a

/-- List the byte `v` at offset `a`, in the place the order gives it. -/
def Memory.insert (a : Nat) (v : Byte) : Memory → Memory
  | [] => [(a, v)]
  | (k, w) :: m =>
    if a < k then (a, v) :: (k, w) :: m
    else if a = k then (a, v) :: m
    else (k, w) :: Memory.insert a v m

/-- Unlist offset `a`. -/
def Memory.erase (a : Nat) (m : Memory) : Memory := m.filter fun c => c.1 != a

/-- R10: slot byte `a` becomes `v`; writing what an unlisted offset reads as removes the cell. -/
def Memory.write (m : Memory) (a : Nat) (v : Byte) : Memory :=
  if v = Memory.unlisted then Memory.erase a m else Memory.insert a v m

/-- The cells of a byte sequence laid at offset `a` and on. -/
def Memory.cells (a : Nat) : List Byte → Memory
  | [] => []
  | b :: bs => if b = Memory.unlisted then Memory.cells (a + 1) bs
      else (a, b) :: Memory.cells (a + 1) bs

/-- R10 `OUT[0..61] <- bytes`: a slot written whole. -/
def Memory.ofBytes (b : List Byte) : Memory := Memory.cells 0 b

/-- R221 `0^62`: the zeroed slot. -/
def Memory.zero : Memory := []

/-- R9: the `n` bytes of a slot from offset `a`. -/
def Memory.bytes (m : Memory) (a n : Nat) : List Byte :=
  (List.range n).map fun k => m.read (a + k)

/-- R21, R226: a slot's 62 bytes, `S[0..61]`. -/
def Memory.slot (m : Memory) : List Byte := m.bytes 0 slotLen

/-- The cells of a canonical slot that begin at offset `lo` or above. -/
def Memory.wfFrom (lo : Nat) : Memory → Bool
  | [] => true
  | (k, v) :: m => decide (lo ≤ k) && decide (k < slotLen) && v != Memory.unlisted && Memory.wfFrom (k + 1) m

/-- The canonical form: offsets strictly rising and inside the slot, no cell that reads as unlisted. -/
def Memory.wf (m : Memory) : Bool := Memory.wfFrom 0 m

/-! ### What the block transmits -/

/-- R8(4), R92: the fill byte of this step, the entropy source's next one; where it names none, a free
value. -/
def State.draw (s : State) : Byte := s.draws.headD (Config.freeFill s.oracle)

/-- R96: the byte the block transmits in its current phase; a non-busy block transmits nothing. It is a
function of the state before the exchange and of the draw (R63). -/
def State.tx (s : State) : Option Byte :=
  match s.st with
  | .idle | .complete | .failed => none
  | .hsMode => some s.params.modeCode
  | .hsMaster => some s.params.masterCode
  | .hsVersion => some s.params.versionCode
  | .entropy => some s.draw
  | .metadata => some ((metaOut s.params.layout s.out.slot).getD s.idx 0)
  | .select => some s.params.selBase
  | .record => some (s.out.read s.idx)
  | .confirm => some s.params.ackCode

/-- R162 `XCHG`: the wire carries `tx` out and the answer in. No register of the block changes; a draw
is used up by an exchange in `ENTROPY` (R185), a free value by any. -/
def State.exchanged (tx : Byte) (ans : Answer) (s : State) : State :=
  { s with
    wire := s.wire ++ [⟨tx, ans⟩]
    draws := if s.st = .entropy then s.draws.tail else s.draws
    oracle := s.oracle + 1 }

/-! ### The sequencer's position and the counters -/

/-- R10: `st <- p`. -/
def State.goto (p : Phase) (s : State) : State := { s with st := p }

/-- R10, R23: `st <- p; idx <- 0`, the entry of a phase that counts and the exit of one. -/
def State.enter (p : Phase) (s : State) : State := { s with st := p, idx := 0 }

/-- R23: `idx <- idx + 1`. -/
def State.advance (s : State) : State := { s with idx := s.idx + 1 }

/-- R24: `retry <- n`. -/
def State.setRetry (n : Nat) (s : State) : State := { s with retry := n }

/-- R10: `RCV[a] <- v`. -/
def State.store (a : Nat) (v : Byte) (s : State) : State := { s with rcv := s.rcv.write a v }

/-- R120: the datapath's output becomes `v`. -/
def State.putResult (v : Value) (s : State) : State := { s with datapath := some v }

/-! ### Reports, failures, attempts -/

/-- R10 `emit`: place a report on the result port. -/
def State.emit (r : Report) (s : State) : State := { s with reports := s.reports ++ [r] }

/-- R10, R244 `raise <cause>`: `st`, `err` and the report; nothing else changes. -/
def State.fail (cause : FailCause) (s : State) : State :=
  State.emit (.result .failed cause s.rcv.slot) { s with st := .failed, err := cause }

/-- R189: the attempt ends in `COMPLETE`. -/
def State.finish (s : State) : State :=
  State.emit (.result .complete .none s.rcv.slot) { s with st := .complete }

/-- R221, R246: an accepted `'t'`, the only way out of `FAILED`: `OUT` rebuilt, `RCV` zeroed, the
registers cleared, a fresh attempt begun. -/
def State.startAttempt (s : State) : State :=
  { s with
    out := Memory.ofBytes (encSlot s.params.layout
      (buildL1 s.config.template s.config.trainerName s.config.trainerId))
    rcv := Memory.zero
    err := .none
    retry := 0
    idx := 0
    st := .hsMode }

/-- R225: a command byte offered while busy; under `Hold` it stays with the host transport, under
`Drop` it is consumed and discarded. -/
def State.offerWhileBusy (b : Byte) (s : State) : State :=
  match s.params.busyPolicy with
  | .hold => { s with held := s.held ++ [b] }
  | .drop => s

/-- R270, R271: the reset event puts the six pieces of state at their reset values; what is outside the
block keeps what it holds. -/
def State.resetBlock (s : State) : State :=
  { s with
    out := State.reset.out
    rcv := State.reset.rcv
    st := State.reset.st
    idx := State.reset.idx
    retry := State.reset.retry
    err := State.reset.err }

/-! ### The engine's shared rule -/

/-- R182 to R184: a handshake sub-step that expects `code` and receives `rx`. On a match it goes on as
`next` says; a mismatch is retried within the budget, and then fails. -/
def State.handshake (code rx : Byte) (next : State → State) (s : State) : State :=
  if rx = code then next (s.setRetry 0)
  else if s.retry < s.params.retryBudget then s.setRetry (s.retry + 1)
  else s.fail .handshakeMismatch

/-- R91, R187: the party index a received selection byte decodes to. -/
def selectionIndex (base rx : Byte) : Nat := (rx - base).toNat

/-! ### The codec datapath -/

/-- R120, R121: a codec operation with typed operands puts its result on the datapath's output and
changes nothing else; an operation whose operands are not typed cannot be formed. -/
def State.compute (typed : Bool) (v : Value) (s : State) : Host.Outcome State Fault Refusal :=
  if typed then .next (s.putResult v) else .refused .operandIllTyped

end Sys2Proof.Machine
end

