-- ==== Sys2Proof/Machine/Codec.lean ====
section
/-! DEFINITION. The Party Record Codec's operations (spec/40_codec.md R120 to R146) as steps: each puts
its result on the datapath's output and touches no state of the block. -/

namespace Sys2Proof.Machine

/-- R122 `LE16_GET`. -/
def execLe16Get (b : List Byte) (o : Nat) (s : State) : Host.Outcome State Fault Refusal :=
  s.compute (decide (o + 1 < b.length)) (.bits 16 (le16Get b o))

/-- R123 `LE16_PUT`. -/
def execLe16Put (b : List Byte) (o : Nat) (v : Half) (s : State) : Host.Outcome State Fault Refusal :=
  s.compute (decide (o + 1 < b.length)) (.bytes (le16Put b o v))

/-- R124 `EXP_GET`. -/
def execExpGet (b : List Byte) (o : Nat) (s : State) : Host.Outcome State Fault Refusal :=
  s.compute (decide (o + 2 < b.length)) (.bits 24 (expGet b o))

/-- R125 `EXP_PUT`. -/
def execExpPut (b : List Byte) (o : Nat) (v : Triple) (s : State) : Host.Outcome State Fault Refusal :=
  s.compute (decide (o + 2 < b.length)) (.bytes (expPut b o v))

/-- R126 `FIELD_GET`: a value of the field's width. -/
def execFieldGet (b : List Byte) (f : CoreField) (s : State) : Host.Outcome State Fault Refusal :=
  s.compute (isCoreArray b) (.bits f.width (BitVec.ofNat f.width (fieldGet s.params.layout b f)))

/-- R126 `FIELD_PUT`: a value wider than the field is refused, not wrapped (R121). -/
def execFieldPut (b : List Byte) (f : CoreField) (v : Nat) (s : State) : Host.Outcome State Fault Refusal :=
  s.compute (isCoreArray b && decide (v < 2 ^ f.width)) (.bytes (fieldPut s.params.layout b f v))

/-- R127 `ENC_CORE`. -/
def execEncCore (r : PartyRecord) (s : State) : Host.Outcome State Fault Refusal :=
  s.compute r.wf (.bytes (encCore s.params.layout r.core))

/-- R128 `DEC_CORE`. -/
def execDecCore (b : List Byte) (s : State) : Host.Outcome State Fault Refusal :=
  s.compute (b.length == coreLen) (.core (decCore s.params.layout b))

/-- R130 `PAD_STRING`. -/
def execPadString (c : List Byte) (l : NameField) (s : State) : Host.Outcome State Fault Refusal :=
  s.compute true (.bytes (padString c l.len))

/-- R131 `SET_NAME`. -/
def execSetName (r : PartyRecord) (f : NameField) (c : List Byte) (s : State) : Host.Outcome State Fault Refusal :=
  s.compute r.wf (.record (setName r f c))

/-- R131 `ENC_TRAILER`. -/
def execEncTrailer (r : PartyRecord) (s : State) : Host.Outcome State Fault Refusal :=
  s.compute r.wf (.bytes (encTrailer r))

/-- R132 `DEC_TRAILER`. -/
def execDecTrailer (t : List Byte) (s : State) : Host.Outcome State Fault Refusal :=
  s.compute (t.length == trailerLen) (.names (decNickname t) (decOtName t))

/-- R137 `CONTENT`. -/
def execContent (f : List Byte) (s : State) : Host.Outcome State Fault Refusal :=
  s.compute (f.length == nickLen || f.length == otNameLen) (.bytes (content f))

/-- R138 `ENC_SLOT`. -/
def execEncSlot (r : PartyRecord) (s : State) : Host.Outcome State Fault Refusal :=
  s.compute r.wf (.bytes (encSlot s.params.layout r))

/-- R138 `DEC_SLOT`. -/
def execDecSlot (b : List Byte) (s : State) : Host.Outcome State Fault Refusal :=
  s.compute (b.length == slotLen) (.record (decSlot s.params.layout b))

/-- R133 `IV_HP`. -/
def execIvHp (w : Half) (s : State) : Host.Outcome State Fault Refusal :=
  s.compute true (.bits 4 (ivHp w))

/-- R134 `PP_PACK`. -/
def execPpPack (ups : BitVec 2) (cur : BitVec 6) (s : State) : Host.Outcome State Fault Refusal :=
  s.compute true (.bits 8 (ppPack ups cur))

/-- R135 `PP_GET_CUR`. -/
def execPpGetCur (b : Byte) (s : State) : Host.Outcome State Fault Refusal :=
  s.compute true (.bits 6 (ppGetCur b))

/-- R136 `PP_GET_UPS`. -/
def execPpGetUps (b : Byte) (s : State) : Host.Outcome State Fault Refusal :=
  s.compute true (.bits 2 (ppGetUps b))

/-- R139 `IV_GET`. -/
def execIvGet (which : IvName) (w : Half) (s : State) : Host.Outcome State Fault Refusal :=
  s.compute true (.bits 4 (ivGet which w))

/-- R140 `IV_PACK`. -/
def execIvPack (a d p c : BitVec 4) (s : State) : Host.Outcome State Fault Refusal :=
  s.compute true (.bits 16 (ivPack a d p c))

/-- R145 `BUILD_L1`. -/
def execBuildL1 (tpl : SpeciesTemplate) (name : List Byte) (id : Half) (s : State) : Host.Outcome State Fault Refusal :=
  s.compute true (.record (buildL1 tpl name id))

/-- R146 `META_OUT`. -/
def execMetaOut (b : List Byte) (s : State) : Host.Outcome State Fault Refusal :=
  s.compute (b.length == slotLen) (.bytes (metaOut s.params.layout b))

end Sys2Proof.Machine
end

