-- ==== Sys2Proof/Machine/Commands.lean ====
section
/-! DEFINITION. The Command Dispatcher (spec/43_dispatcher.md R220 to R227): the meaning of each host
command. A command byte offered while busy does not reach its command's rule but R225. -/

namespace Sys2Proof.Machine

/-- R221 `CMD_TRADE`: start an attempt; while busy, R225 applies to the byte. -/
def execCmdTrade (s : State) : Host.Outcome State Fault Refusal :=
  if s.st.busy then .next (s.offerWhileBusy tradeByte) else .next s.startAttempt

/-- R222 `CMD_HELP`: report the help text; nothing else changes. -/
def execCmdHelp (s : State) : Host.Outcome State Fault Refusal :=
  if s.st.busy then .next (s.offerWhileBusy helpByte) else .next (s.emit (.help s.params.helpText))

/-- R223 `CMD_NOP`: nothing changes and nothing is emitted. The two bytes that are commands are none of
its 254 values. -/
def execCmdNop (opcode : Byte) (s : State) : Host.Outcome State Fault Refusal :=
  if opcode = tradeByte ∨ opcode = helpByte then .refused .operandIllTyped
  else if s.st.busy then .next (s.offerWhileBusy opcode) else .next s

/-- R225 `CMD_WHILE_BUSY`: the busy policy. A byte that finds the block non-busy is accepted (R220). -/
def execCmdWhileBusy (opcode : Byte) (s : State) : Host.Outcome State Fault Refusal :=
  if s.st.busy then .next (s.offerWhileBusy opcode)
  else if opcode = tradeByte then .next s.startAttempt
  else if opcode = helpByte then .next (s.emit (.help s.params.helpText))
  else .next s

end Sys2Proof.Machine
end

