-- ==== Sys2Proof/Machine/Fields.lean ====
section
/-! DEFINITION. The record fields (spec/10_state.md R29, spec/40_codec.md R126, R132) as operations: each
row `FIELD.<name>` of the table reads its field. -/

namespace Sys2Proof.Machine

/-- R126: the core field `f` of a 44-byte array or of the first 44 bytes of a slot, a value of the
field's width. -/
def State.readField (f : CoreField) (b : List Byte) (s : State) : Host.Outcome State Fault Refusal :=
  s.compute (isCoreArray b) (.bits f.width (BitVec.ofNat f.width (fieldGet s.params.layout b f)))

/-- R132, R57, R51: the name field `f` of an 18-byte trailer or of a 62-byte slot, raw. -/
def State.readName (f : NameField) (b : List Byte) (s : State) : Host.Outcome State Fault Refusal :=
  s.compute (isTrailerArray b)
    (.bytes (slice b (if b.length = slotLen then f.slotOff else f.trailerOff) f.len))

/-- `FIELD.speciesId`. -/
def execFieldSpeciesId (b : List Byte) (s : State) : Host.Outcome State Fault Refusal :=
  s.readField .speciesId b

/-- `FIELD.currentHp`. -/
def execFieldCurrentHp (b : List Byte) (s : State) : Host.Outcome State Fault Refusal :=
  s.readField .currentHp b

/-- `FIELD.maxHp`. -/
def execFieldMaxHp (b : List Byte) (s : State) : Host.Outcome State Fault Refusal :=
  s.readField .maxHp b

/-- `FIELD.attack`. -/
def execFieldAttack (b : List Byte) (s : State) : Host.Outcome State Fault Refusal :=
  s.readField .attack b

/-- `FIELD.defense`. -/
def execFieldDefense (b : List Byte) (s : State) : Host.Outcome State Fault Refusal :=
  s.readField .defense b

/-- `FIELD.speed`. -/
def execFieldSpeed (b : List Byte) (s : State) : Host.Outcome State Fault Refusal :=
  s.readField .speed b

/-- `FIELD.special`. -/
def execFieldSpecial (b : List Byte) (s : State) : Host.Outcome State Fault Refusal :=
  s.readField .special b

/-- `FIELD.level`. -/
def execFieldLevel (b : List Byte) (s : State) : Host.Outcome State Fault Refusal :=
  s.readField .level b

/-- `FIELD.levelInBox`. -/
def execFieldLevelInBox (b : List Byte) (s : State) : Host.Outcome State Fault Refusal :=
  s.readField .levelInBox b

/-- `FIELD.statusCondition`. -/
def execFieldStatusCondition (b : List Byte) (s : State) : Host.Outcome State Fault Refusal :=
  s.readField .statusCondition b

/-- `FIELD.type1`. -/
def execFieldType1 (b : List Byte) (s : State) : Host.Outcome State Fault Refusal :=
  s.readField .type1 b

/-- `FIELD.type2`. -/
def execFieldType2 (b : List Byte) (s : State) : Host.Outcome State Fault Refusal :=
  s.readField .type2 b

/-- `FIELD.catchRateOrHeldItem`. -/
def execFieldCatchRateOrHeldItem (b : List Byte) (s : State) : Host.Outcome State Fault Refusal :=
  s.readField .catchRateOrHeldItem b

/-- `FIELD.move1`. -/
def execFieldMove1 (b : List Byte) (s : State) : Host.Outcome State Fault Refusal :=
  s.readField .move1 b

/-- `FIELD.move2`. -/
def execFieldMove2 (b : List Byte) (s : State) : Host.Outcome State Fault Refusal :=
  s.readField .move2 b

/-- `FIELD.move3`. -/
def execFieldMove3 (b : List Byte) (s : State) : Host.Outcome State Fault Refusal :=
  s.readField .move3 b

/-- `FIELD.move4`. -/
def execFieldMove4 (b : List Byte) (s : State) : Host.Outcome State Fault Refusal :=
  s.readField .move4 b

/-- `FIELD.pp1`. -/
def execFieldPp1 (b : List Byte) (s : State) : Host.Outcome State Fault Refusal :=
  s.readField .pp1 b

/-- `FIELD.pp2`. -/
def execFieldPp2 (b : List Byte) (s : State) : Host.Outcome State Fault Refusal :=
  s.readField .pp2 b

/-- `FIELD.pp3`. -/
def execFieldPp3 (b : List Byte) (s : State) : Host.Outcome State Fault Refusal :=
  s.readField .pp3 b

/-- `FIELD.pp4`. -/
def execFieldPp4 (b : List Byte) (s : State) : Host.Outcome State Fault Refusal :=
  s.readField .pp4 b

/-- `FIELD.otId`. -/
def execFieldOtId (b : List Byte) (s : State) : Host.Outcome State Fault Refusal :=
  s.readField .otId b

/-- `FIELD.expPoints`. -/
def execFieldExpPoints (b : List Byte) (s : State) : Host.Outcome State Fault Refusal :=
  s.readField .expPoints b

/-- `FIELD.hpEv`. -/
def execFieldHpEv (b : List Byte) (s : State) : Host.Outcome State Fault Refusal :=
  s.readField .hpEv b

/-- `FIELD.attackEv`. -/
def execFieldAttackEv (b : List Byte) (s : State) : Host.Outcome State Fault Refusal :=
  s.readField .attackEv b

/-- `FIELD.defenseEv`. -/
def execFieldDefenseEv (b : List Byte) (s : State) : Host.Outcome State Fault Refusal :=
  s.readField .defenseEv b

/-- `FIELD.speedEv`. -/
def execFieldSpeedEv (b : List Byte) (s : State) : Host.Outcome State Fault Refusal :=
  s.readField .speedEv b

/-- `FIELD.specialEv`. -/
def execFieldSpecialEv (b : List Byte) (s : State) : Host.Outcome State Fault Refusal :=
  s.readField .specialEv b

/-- `FIELD.ivData`. -/
def execFieldIvData (b : List Byte) (s : State) : Host.Outcome State Fault Refusal :=
  s.readField .ivData b

/-- `FIELD.nickname`. -/
def execFieldNickname (b : List Byte) (s : State) : Host.Outcome State Fault Refusal :=
  s.readName .nickname b

/-- `FIELD.otName`. -/
def execFieldOtName (b : List Byte) (s : State) : Host.Outcome State Fault Refusal :=
  s.readName .otName b

end Sys2Proof.Machine
end

