-- ==== Sys2Proof/Machine/Engine.lean ====
section
/-! DEFINITION. The Trade Protocol Engine (spec/42_engine.md R180 to R190): the meaning of each engine
step. A step transmits its phase's byte, takes the answer and applies the phase's rule, all at once
(R180); in a state its row of the transition table R181 does not list it has no transition. -/

namespace Sys2Proof.Machine

/-- R182 `HS_MODE`. -/
def execHsMode (code : Byte) (s : State) : Host.Outcome State Fault Refusal :=
  if s.st = .hsMode then
    .next ((s.exchanged s.params.modeCode (.byte code)).handshake s.params.modeCode code
      (State.goto .hsMaster))
  else .refused .noTransition

/-- R183 `HS_MASTER`. -/
def execHsMaster (code : Byte) (s : State) : Host.Outcome State Fault Refusal :=
  if s.st = .hsMaster then
    .next ((s.exchanged s.params.masterCode (.byte code)).handshake s.params.masterCode code
      (State.goto .hsVersion))
  else .refused .noTransition

/-- R184 `HS_VERSION`. -/
def execHsVersion (code : Byte) (s : State) : Host.Outcome State Fault Refusal :=
  if s.st = .hsVersion then
    .next ((s.exchanged s.params.versionCode (.byte code)).handshake s.params.versionCode code
      (State.enter .entropy))
  else .refused .noTransition

/-- R185 `ENTROPY`: transmit a draw, discard what arrives, count to `N_ENTROPY`. -/
def execEntropy (fill : Byte) (s : State) : Host.Outcome State Fault Refusal :=
  if s.st = .entropy ∧ s.idx < s.params.nEntropy then
    let t := s.exchanged s.draw (.byte fill)
    if s.idx + 1 = s.params.nEntropy then .next (t.enter .metadata) else .next t.advance
  else .refused .noTransition

/-- R186: keep one byte of the peer's metadata stream if it is part of the trailer and the trailer is
wired: stream bytes 9..26 are slot bytes 44..61. -/
def State.keepMetadata (rx : Byte) (s : State) : State :=
  if s.params.wireTrailer ∧ 9 ≤ s.idx then s.store (35 + s.idx) rx else s

/-- R186 `METADATA`. -/
def execMetadata (rx : Byte) (s : State) : Host.Outcome State Fault Refusal :=
  if s.st = .metadata ∧ s.idx < metaLen then
    let tx := (metaOut s.params.layout s.out.slot).getD s.idx 0
    let t := (s.exchanged tx (.byte rx)).keepMetadata rx
    if s.idx = metaLen - 1 then .next (t.enter .select) else .next t.advance
  else .refused .noTransition

/-- R187 `SELECT`: the index is checked against this side's party size and not stored. -/
def execSelect (selection : Byte) (s : State) : Host.Outcome State Fault Refusal :=
  if s.st = .select then
    let t := s.exchanged s.params.selBase (.byte selection)
    if selectionIndex s.params.selBase selection < partySize then .next (t.enter .record)
    else .next (t.fail .malformedSelection)
  else .refused .noTransition

/-- R188 `RECORD`: send `OUT[idx]`, store the received byte at `RCV[idx]`. -/
def execRecord (rx : Byte) (s : State) : Host.Outcome State Fault Refusal :=
  if s.st = .record ∧ s.idx < coreLen then
    let t := (s.exchanged (s.out.read s.idx) (.byte rx)).store s.idx rx
    if s.idx = coreLen - 1 then .next (t.enter .confirm) else .next t.advance
  else .refused .noTransition

/-- R189 `CONFIRM`. -/
def execConfirm (code : Byte) (s : State) : Host.Outcome State Fault Refusal :=
  if s.st = .confirm then
    let t := s.exchanged s.params.ackCode (.byte code)
    if code = s.params.ackCode then .next t.finish else .next (t.fail .confirmMismatch)
  else .refused .noTransition

/-- R190 `TIMEOUT_ANY`: in any busy phase the byte goes out, no byte comes in and the attempt fails. -/
def execTimeoutAny (s : State) : Host.Outcome State Fault Refusal :=
  match s.tx with
  | some tx => .next ((s.exchanged tx .timeout).fail .linkTimeout)
  | none => .refused .noTransition

end Sys2Proof.Machine
end

