-- ==== Sys2Proof/Machine/Transport.lean ====
section
/-! DEFINITION. The Link Transport Adapter's interface (spec/41_transport.md R160 to R165). -/

namespace Sys2Proof.Machine

/-- R161 `CONFIGURE`: the adapter records the values; no state of the block changes. The spec gives no
meaning to a call while busy. -/
def execConfigure (c : LinkConfig) (s : State) : Host.Outcome State Fault Refusal :=
  if s.st.busy then .refused .configureWhileBusy else .next { s with link := some c }

/-- R180: the answer of the exchange the block has issued, handed to the rule of the current phase. -/
def State.answered (ans : Answer) (s : State) : Host.Outcome State Fault Refusal :=
  match ans, s.st with
  | .timeout, _ => execTimeoutAny s
  | .byte rx, .hsMode => execHsMode rx s
  | .byte rx, .hsMaster => execHsMaster rx s
  | .byte rx, .hsVersion => execHsVersion rx s
  | .byte rx, .entropy => execEntropy rx s
  | .byte rx, .metadata => execMetadata rx s
  | .byte rx, .select => execSelect rx s
  | .byte rx, .record => execRecord rx s
  | .byte rx, .confirm => execConfirm rx s
  | .byte _, .idle | .byte _, .complete | .byte _, .failed => .refused .noTransition

/-- R162 `XCHG`: the block issues exactly one exchange per engine step, only while busy, with the byte
of its phase; the exchange and the phase's rule are one atomic step (R180). It issues no other. -/
def execXchg (tx : Byte) (ans : Answer) (s : State) : Host.Outcome State Fault Refusal :=
  if s.tx = some tx then s.answered ans else .refused .exchangeNotIssued

end Sys2Proof.Machine
end

