-- ==== Sys2Proof/Machine/Dispatch.lean ====
section
/-! DEFINITION. The meaning of every operation: one arm per constructor of Instr. -/

namespace Sys2Proof.Machine

def exec (i : Instr) (s : State) : Host.Outcome State Fault Refusal :=
  match i with
  | .cmdTrade => Sys2Proof.Machine.execCmdTrade s
  | .cmdHelp => Sys2Proof.Machine.execCmdHelp s
  | .cmdNop opcode => Sys2Proof.Machine.execCmdNop opcode s
  | .cmdWhileBusy opcode => Sys2Proof.Machine.execCmdWhileBusy opcode s
  | .hsMode code => Sys2Proof.Machine.execHsMode code s
  | .hsMaster code => Sys2Proof.Machine.execHsMaster code s
  | .hsVersion code => Sys2Proof.Machine.execHsVersion code s
  | .entropy fill => Sys2Proof.Machine.execEntropy fill s
  | .metadata rx => Sys2Proof.Machine.execMetadata rx s
  | .select selection => Sys2Proof.Machine.execSelect selection s
  | .record rx => Sys2Proof.Machine.execRecord rx s
  | .confirm code => Sys2Proof.Machine.execConfirm code s
  | .timeoutAny => Sys2Proof.Machine.execTimeoutAny s
  | .configure c => Sys2Proof.Machine.execConfigure c s
  | .xchg tx ans => Sys2Proof.Machine.execXchg tx ans s
  | .le16Get b o => Sys2Proof.Machine.execLe16Get b o s
  | .le16Put b o v => Sys2Proof.Machine.execLe16Put b o v s
  | .expGet b o => Sys2Proof.Machine.execExpGet b o s
  | .expPut b o v => Sys2Proof.Machine.execExpPut b o v s
  | .fieldGet b f => Sys2Proof.Machine.execFieldGet b f s
  | .fieldPut b f v => Sys2Proof.Machine.execFieldPut b f v s
  | .encCore r => Sys2Proof.Machine.execEncCore r s
  | .decCore b => Sys2Proof.Machine.execDecCore b s
  | .padString c l => Sys2Proof.Machine.execPadString c l s
  | .setName r f c => Sys2Proof.Machine.execSetName r f c s
  | .encTrailer r => Sys2Proof.Machine.execEncTrailer r s
  | .decTrailer t => Sys2Proof.Machine.execDecTrailer t s
  | .content f => Sys2Proof.Machine.execContent f s
  | .encSlot r => Sys2Proof.Machine.execEncSlot r s
  | .decSlot b => Sys2Proof.Machine.execDecSlot b s
  | .ivHp w => Sys2Proof.Machine.execIvHp w s
  | .ppPack ups cur => Sys2Proof.Machine.execPpPack ups cur s
  | .ppGetCur b => Sys2Proof.Machine.execPpGetCur b s
  | .ppGetUps b => Sys2Proof.Machine.execPpGetUps b s
  | .ivGet which w => Sys2Proof.Machine.execIvGet which w s
  | .ivPack a d p c => Sys2Proof.Machine.execIvPack a d p c s
  | .buildL1 tpl name id => Sys2Proof.Machine.execBuildL1 tpl name id s
  | .metaOut b => Sys2Proof.Machine.execMetaOut b s
  | .fieldSpeciesId b => Sys2Proof.Machine.execFieldSpeciesId b s
  | .fieldCurrentHp b => Sys2Proof.Machine.execFieldCurrentHp b s
  | .fieldMaxHp b => Sys2Proof.Machine.execFieldMaxHp b s
  | .fieldAttack b => Sys2Proof.Machine.execFieldAttack b s
  | .fieldDefense b => Sys2Proof.Machine.execFieldDefense b s
  | .fieldSpeed b => Sys2Proof.Machine.execFieldSpeed b s
  | .fieldSpecial b => Sys2Proof.Machine.execFieldSpecial b s
  | .fieldLevel b => Sys2Proof.Machine.execFieldLevel b s
  | .fieldLevelInBox b => Sys2Proof.Machine.execFieldLevelInBox b s
  | .fieldStatusCondition b => Sys2Proof.Machine.execFieldStatusCondition b s
  | .fieldType1 b => Sys2Proof.Machine.execFieldType1 b s
  | .fieldType2 b => Sys2Proof.Machine.execFieldType2 b s
  | .fieldCatchRateOrHeldItem b => Sys2Proof.Machine.execFieldCatchRateOrHeldItem b s
  | .fieldMove1 b => Sys2Proof.Machine.execFieldMove1 b s
  | .fieldMove2 b => Sys2Proof.Machine.execFieldMove2 b s
  | .fieldMove3 b => Sys2Proof.Machine.execFieldMove3 b s
  | .fieldMove4 b => Sys2Proof.Machine.execFieldMove4 b s
  | .fieldPp1 b => Sys2Proof.Machine.execFieldPp1 b s
  | .fieldPp2 b => Sys2Proof.Machine.execFieldPp2 b s
  | .fieldPp3 b => Sys2Proof.Machine.execFieldPp3 b s
  | .fieldPp4 b => Sys2Proof.Machine.execFieldPp4 b s
  | .fieldOtId b => Sys2Proof.Machine.execFieldOtId b s
  | .fieldExpPoints b => Sys2Proof.Machine.execFieldExpPoints b s
  | .fieldHpEv b => Sys2Proof.Machine.execFieldHpEv b s
  | .fieldAttackEv b => Sys2Proof.Machine.execFieldAttackEv b s
  | .fieldDefenseEv b => Sys2Proof.Machine.execFieldDefenseEv b s
  | .fieldSpeedEv b => Sys2Proof.Machine.execFieldSpeedEv b s
  | .fieldSpecialEv b => Sys2Proof.Machine.execFieldSpecialEv b s
  | .fieldIvData b => Sys2Proof.Machine.execFieldIvData b s
  | .fieldNickname b => Sys2Proof.Machine.execFieldNickname b s
  | .fieldOtName b => Sys2Proof.Machine.execFieldOtName b s

end Sys2Proof.Machine
end

