-- ==== Sys2Proof/Machine/Fetch.lean ====
section
/-! DEFINITION. What the block consumes next (spec/10_state.md R33, spec/41_transport.md R163, R164,
spec/43_dispatcher.md R220, R225), and where a table word is placed for it to be consumed next. -/

namespace Sys2Proof.Machine

/-- What the next step consumes, and the state with it consumed. A non-busy block first accepts the
bytes the host transport has held, in order (R225); then what the environment offers comes in order. A
busy block whose environment names no answer is answered all the same (R163), with a free value (R164).
A non-busy block to which nothing is offered has nothing to consume. -/
def State.pending (s : State) : Option (Input × State) :=
  match s.st.busy, s.held, s.inputs with
  | false, b :: bs, _ => some (.host [b], { s with held := bs })
  | _, _, i :: is => some (i, { s with inputs := is })
  | true, _, [] => some (.answer (Config.freeAnswer s.oracle), s)
  | false, [], [] => none

/-- A table word offered on the host command channel, ahead of everything the host transport holds and
the environment offers, to a block that accepts it (a busy one is put in `IDLE`, R220). -/
def State.offerWord (s : State) (nbits w : Nat) : State :=
  { s with
    st := if s.st.busy then .idle else s.st
    held := []
    inputs := .host (tableBytes nbits w) :: (s.held.map fun b => .host [b]) ++ s.inputs }

end Sys2Proof.Machine
end

