-- ==== Sys2Proof/Machine/Step.lean ====
section
/-! DEFINITION. One step of the machine (spec/00_scope.md R11): what the block consumes next is decoded in
the current phase and its meaning run on the state that has consumed it. -/

namespace Sys2Proof.Machine

/-- R11, R61: one atomic step. A change of the configuration inputs (R64) and a reset (R270) are events
of the environment, not operations; a non-busy block to which nothing is offered polls again and
changes nothing (R252). -/
def step (s : State) : Host.Outcome State Fault Refusal :=
  match s.pending with
  | none => .next s
  | some (.config c, t) => .next { t with config := c }
  | some (.reset, t) => .next t.resetBlock
  | some (i, t) =>
    match decode t.st i with
    | .ok op => exec op t
    | .error e => .refused (.undecodable e)

/-- The state whose next step consumes the table word (log entry 8). -/
def State.withFetchWord (s : State) (nbits w : Nat) : State := s.offerWord nbits w

end Sys2Proof.Machine
end

