-- ==== Sys2Proof/Machine/Loopback.lean ====
section
/-! DEFINITION. Two blocks over a loopback (spec/41_transport.md R166, spec/60_exceptions.md R251): each
has its own state and parameters, they share nothing, and the adapter of each is the other's link. -/

namespace Sys2Proof.Machine

/-- R251: two instances of the block. -/
structure Pair where
  a : State
  b : State
deriving DecidableEq, Repr

/-- What the link does in one step of the composition: R166(d), the byte that replaces the one delivered
to a side; R166(c), whether a busy side whose peer is in `IDLE` with a `'t'` still to come waits or is
answered `Timeout`. -/
structure LinkEvent where
  toA : Option Byte
  toB : Option Byte
  waits : Bool
deriving DecidableEq, Repr

/-- What happens next in the composition: an event of the link (R166), or the own environment of one side
(R251): its host offers a command byte, its configuration inputs change, it is reset. -/
inductive PairEvent where
  | link (e : LinkEvent)
  | ownA
  | ownB
deriving DecidableEq, Repr

/-- R166(a): the link delivers both bytes as they were sent. -/
def LinkEvent.clean : LinkEvent := ⟨none, none, true⟩

/-- R166(a), (d): the answer of an exchange in which the peer transmits `tx`. -/
def LinkEvent.deliver (injected : Option Byte) (tx : Byte) : Answer := .byte (injected.getD tx)

/-- R180: the engine step of a block whose exchange is answered. -/
def State.linkStep (ans : Answer) (s : State) : Host.Outcome State Fault Refusal :=
  match decode s.st (.answer ans) with
  | .ok op => exec op s
  | .error e => .refused (.undecodable e)

/-- R166(c): a `'t'` is still to come on this side. -/
def State.tradeToCome (s : State) : Bool :=
  decide (tradeByte ∈ s.held) || decide (Input.host [tradeByte] ∈ s.inputs)

/-- R166(b), (c): the step of a busy block whose peer exchanges nothing: `Timeout`, or no step yet while
the peer is in `IDLE` with a `'t'` still to come. -/
def State.aloneStep (s peer : State) (waits : Bool) : Host.Outcome State Fault Refusal :=
  if peer.st = .idle ∧ peer.tradeToCome ∧ waits then .next s else s.linkStep .timeout

/-- R271: what is offered to this side next is a reset in the middle of an attempt. -/
def State.abandons (s : State) : Bool := s.st.busy && decide (s.inputs.head? = some .reset)

/-- R271: what this side sees of an own step of `peer`: if that is a reset in mid-attempt, this side's
exchange, if it is in one, is answered `Timeout`, and its attempt ends in `LINK_TIMEOUT`; else nothing.
DESIGN CHOICE (log entry 24): the link gives that answer in the step of the reset, before anything else
happens on either side. -/
def State.peerStep (s peer : State) : Host.Outcome State Fault Refusal :=
  if peer.abandons ∧ s.st.busy then s.linkStep .timeout else .next s

/-- R162: an input that answers an exchange. -/
def Input.isAnswer : Input → Bool
  | .answer _ => true
  | .call row _ => row == 14
  | .host _ | .config _ | .reset => false

/-- R251: the step of one side on what its own environment offers: the bytes of its own host, its own
configuration inputs, its reset. To a busy block that is offered nothing nothing happens; an answer comes
from the link and from nowhere else. -/
def State.ownStep (s : State) : Host.Outcome State Fault Refusal :=
  match s.st.busy, s.inputs with
  | true, [] => .next s
  | _, _ =>
    match s.pending with
    | some (i, _) => if Input.isAnswer i then .refused .answerNotFromLink else step s
    | none => step s

/-- Both sides' outcomes as the pair's. -/
def Pair.both : Host.Outcome State Fault Refusal → Host.Outcome State Fault Refusal →
    Host.Outcome Pair Fault Refusal
  | .next a, .next b => .next ⟨a, b⟩
  | .fault f, _ => .fault f
  | .refused r, _ => .refused r
  | .next _, .fault f => .fault f
  | .next _, .refused r => .refused r

/-- R166: the step of the composition on a link event; two blocks of which neither is busy exchange
nothing. Both bytes are those of the states before the step (R63). -/
def Pair.linkStep (e : LinkEvent) (p : Pair) : Host.Outcome Pair Fault Refusal :=
  match p.a.tx, p.b.tx with
  | some ta, some tb =>
    Pair.both (p.a.linkStep (LinkEvent.deliver e.toA tb)) (p.b.linkStep (LinkEvent.deliver e.toB ta))
  | some _, none => Pair.both (p.a.aloneStep p.b e.waits) (.next p.b)
  | none, some _ => Pair.both (.next p.a) (p.b.aloneStep p.a e.waits)
  | none, none => .next p

/-- R166, R251: one step of the composition; what one side's environment does leaves the other alone, but
that a busy side sees a peer reset in mid-attempt stop exchanging (R271). -/
def Pair.step (e : PairEvent) (p : Pair) : Host.Outcome Pair Fault Refusal :=
  match e with
  | .link l => p.linkStep l
  | .ownA => Pair.both p.a.ownStep (p.b.peerStep p.a)
  | .ownB => Pair.both (p.a.peerStep p.b) p.b.ownStep

/-- The steps of a list of events, one after the other. -/
def Pair.run : List PairEvent → Pair → Host.Outcome Pair Fault Refusal
  | [], p => .next p
  | e :: es, p =>
    match p.step e with
    | .next q => Pair.run es q
    | .fault f => .fault f
    | .refused r => .refused r

end Sys2Proof.Machine
end

