-- ==== Sys2Proof/Safety.lean ====
section
/-! DEFINITION. What counts as a safe state and a safe run: the invariant the spec gives the state
(spec/10_state.md R20 to R25, R37, R39, spec/20_memory.md R56), which rules out the states no run
reaches. -/

/-- R6, R56: the parameters are in their ranges. -/
def Sys2Proof.Params.wf (p : Sys2Proof.Params) : Prop := p.layout.valid = true ∧ 1 ≤ p.nEntropy

namespace Sys2Proof.Machine

/-- R20, R23: the byte counter is inside the phase that counts, and never above its bound. -/
structure State.PositionOk (s : State) : Prop where
  entropy : s.st = .entropy → s.idx < s.params.nEntropy
  metadata : s.st = .metadata → s.idx < metaLen
  record : s.st = .record → s.idx < coreLen
  bound : s.idx ≤ max (max (coreLen - 1) (metaLen - 1)) (s.params.nEntropy - 1)

/-- R39: the slot offsets that no step of the current attempt has written, as far as the position tells:
the trailer unless it is wired, and what the phases still to come will write. -/
def State.Untouched (s : State) (a : Nat) : Prop :=
  match s.st with
  | .idle | .hsMode | .hsMaster | .hsVersion | .entropy => True
  | .metadata => ¬ (s.params.wireTrailer = true ∧ coreLen ≤ a ∧ a < 35 + s.idx)
  | .select => a < coreLen ∨ s.params.wireTrailer = false
  | .record => (s.idx ≤ a ∧ a < coreLen) ∨ (coreLen ≤ a ∧ s.params.wireTrailer = false)
  | .confirm | .complete | .failed => coreLen ≤ a ∧ s.params.wireTrailer = false

/-- The invariant of the machine. -/
structure State.Inv (s : State) : Prop where
  /-- The parameters are valid (R6). -/
  params : s.params.wf
  /-- `OUT` keeps the canonical form (R21, R37(d)). -/
  out : s.out.wf = true
  /-- `RCV` keeps the canonical form (R21, R37(d)). -/
  rcv : s.rcv.wf = true
  /-- R20, R23. -/
  position : s.PositionOk
  /-- R20, R24. -/
  retry : s.retry ≤ s.params.retryBudget
  /-- R25: `err` is `NONE` exactly when `st` is not `FAILED`. -/
  err : s.err = .none ↔ s.st ≠ .failed
  /-- R39: bytes that no step of the current attempt wrote read as 0x00. -/
  untouched : ∀ a, s.Untouched a → s.rcv.read a = 0x00

/-- A run of `n` steps is safe when it stops nowhere. -/
def SafeRun (n : Nat) (s : State) : Prop := ∃ t, Host.Core.run Sys2Proof.core n s = .next t

end Sys2Proof.Machine
end

