-- ==== Sys2Proof/Certificates/Slice0/Obligations.lean ====
section
/-! DEFINITION. The statements for the provers. Each `Obligations.<Name>` formalises rules of spec/; its
docstring names them. Next states are written out field by field, so that each statement of an
operation's result is also its frame and its completion. -/

open Sys2Proof Sys2Proof.Machine

/-! ### Words the statements use -/

/-- R52: the 16-bit value whose bytes stand at `o` (low) and `o+1` of `b`. -/
def Sys2Proof.word16 (b : List Byte) (o : Nat) : Half :=
  BitVec.ofNat 16 ((b.getD o 0).toNat + 256 * (b.getD (o + 1) 0).toNat)

/-- R52: the 24-bit value whose bytes stand at `o` (low), `o+1` and `o+2` of `b`. -/
def Sys2Proof.word24 (b : List Byte) (o : Nat) : Triple :=
  BitVec.ofNat 24 ((b.getD o 0).toNat + 256 * (b.getD (o + 1) 0).toNat + 65536 * (b.getD (o + 2) 0).toNat)

/-- R120: the state after a codec operation, only the datapath's output new. -/
def Sys2Proof.Machine.State.showing (s : State) (v : Value) : State := { s with datapath := some v }

/-- The state after an exchange outside `ENTROPY`, no register changed: the wire has carried one byte
each way and one free value is used up. -/
def Sys2Proof.Machine.State.swapped (s : State) (tx : Byte) (ans : Answer) : State :=
  { s with wire := s.wire ++ [⟨tx, ans⟩], oracle := s.oracle + 1 }

/-- R244: the state after `raise cause`. -/
def Sys2Proof.Machine.State.raised (s : State) (cause : FailCause) : State :=
  { s with st := .failed, err := cause, reports := s.reports ++ [.result .failed cause s.rcv.slot] }

/-- R7: the codec family, with the record field rows. -/
def Sys2Proof.Instr.isCodec : Instr → Bool
  | .cmdTrade | .cmdHelp | .cmdNop _ | .cmdWhileBusy _ => false
  | .hsMode _ | .hsMaster _ | .hsVersion _ | .entropy _ | .metadata _ => false
  | .select _ | .record _ | .confirm _ | .timeoutAny => false
  | .configure _ | .xchg _ _ => false
  | _ => true

/-- R31: the successor of a busy phase in the fixed order. -/
def Sys2Proof.Phase.successor : Phase → Option Phase
  | .hsMode => some .hsMaster
  | .hsMaster => some .hsVersion
  | .hsVersion => some .entropy
  | .entropy => some .metadata
  | .metadata => some .select
  | .select => some .record
  | .record => some .confirm
  | .confirm => some .complete
  | .idle | .complete | .failed => none

/-- R98: the answers of an attempt in which every byte is recognised. -/
def Sys2Proof.Machine.recognised (p : Params) (fill md core : List Byte) : List Answer :=
  ([p.modeCode, p.masterCode, p.versionCode] ++ fill ++ md ++ [p.selBase] ++ core ++ [p.ackCode]).map Answer.byte

/-- R29, R126: the row `FIELD.<f>` of the table, read from `b`. -/
def Sys2Proof.CoreField.row (f : CoreField) (b : List Byte) : Instr :=
  match f with
  | .speciesId => .fieldSpeciesId b
  | .currentHp => .fieldCurrentHp b
  | .maxHp => .fieldMaxHp b
  | .attack => .fieldAttack b
  | .defense => .fieldDefense b
  | .speed => .fieldSpeed b
  | .special => .fieldSpecial b
  | .level => .fieldLevel b
  | .levelInBox => .fieldLevelInBox b
  | .statusCondition => .fieldStatusCondition b
  | .type1 => .fieldType1 b
  | .type2 => .fieldType2 b
  | .catchRateOrHeldItem => .fieldCatchRateOrHeldItem b
  | .move1 => .fieldMove1 b
  | .move2 => .fieldMove2 b
  | .move3 => .fieldMove3 b
  | .move4 => .fieldMove4 b
  | .pp1 => .fieldPp1 b
  | .pp2 => .fieldPp2 b
  | .pp3 => .fieldPp3 b
  | .pp4 => .fieldPp4 b
  | .otId => .fieldOtId b
  | .expPoints => .fieldExpPoints b
  | .hpEv => .fieldHpEv b
  | .attackEv => .fieldAttackEv b
  | .defenseEv => .fieldDefenseEv b
  | .speedEv => .fieldSpeedEv b
  | .specialEv => .fieldSpecialEv b
  | .ivData => .fieldIvData b

/-- R38, R55: the byte of `RCV` that a busy block's operation stores, and where: in `RECORD` the received
byte at `idx`, in `METADATA` the received byte at `35 + idx` if the trailer is wired and `idx` is at
least 9; no other operation stores one. -/
def Sys2Proof.Machine.State.received (s : State) (i : Instr) : Option (Nat × Byte) :=
  match s.st, i with
  | .record, .record rx | .record, .xchg _ (.byte rx) => some (s.idx, rx)
  | .metadata, .metadata rx | .metadata, .xchg _ (.byte rx) =>
    if s.params.wireTrailer = true ∧ 9 ≤ s.idx then some (35 + s.idx, rx) else none
  | _, _ => none

/-! ### The codec: word serializers and fields -/

/-- R122: `LE16_GET` is `B[o] + 256 * B[o+1]`. -/
def Obligations.Le16GetAssemblesLowByteFirst : Prop :=
  ∀ (s : State) (b : List Byte) (o : Nat), o + 1 < b.length →
    exec (.le16Get b o) s = .next (s.showing (.bits 16 (word16 b o)))

/-- R123: `LE16_PUT` writes `v[7:0]` and `v[15:8]`; no other byte of `B` changes. -/
def Obligations.Le16PutWritesTwoBytes : Prop :=
  ∀ (s : State) (b : List Byte) (o : Nat) (v : Half), o + 1 < b.length →
    exec (.le16Put b o v) s =
      .next (s.showing (.bytes ((b.set o (v.extractLsb' 0 8)).set (o + 1) (v.extractLsb' 8 8))))

/-- R124: `EXP_GET` is `B[o] + 256 * B[o+1] + 65536 * B[o+2]`. -/
def Obligations.ExpGetAssemblesThreeBytes : Prop :=
  ∀ (s : State) (b : List Byte) (o : Nat), o + 2 < b.length →
    exec (.expGet b o) s = .next (s.showing (.bits 24 (word24 b o)))

/-- R125: `EXP_PUT` writes `v[7:0]`, `v[15:8]` and `v[23:16]`; exactly three bytes change. -/
def Obligations.ExpPutWritesThreeBytes : Prop :=
  ∀ (s : State) (b : List Byte) (o : Nat) (v : Triple), o + 2 < b.length →
    exec (.expPut b o v) s =
      .next (s.showing (.bytes (((b.set o (v.extractLsb' 0 8)).set (o + 1) (v.extractLsb' 8 8)).set (o + 2)
        (v.extractLsb' 16 8))))

/-- R126: over a core array or a slot, under a valid layout, `FIELD_GET` assembles the field's bytes
little-endian, and `FIELD_PUT` of a value of the field's width writes those bytes, is read back by
`FIELD_GET`, and changes no byte outside the field and no other field. -/
def Obligations.FieldAccessorsReadAndWriteOneField : Prop :=
  ∀ (s : State) (b : List Byte) (f : CoreField) (v : Nat),
    s.params.layout.valid = true → (b.length = 44 ∨ b.length = 62) → v < 2 ^ f.width →
    (∃ x : BitVec f.width, exec (.fieldGet b f) s = .next (s.showing (.bits f.width x)) ∧
      ∀ k, k < f.bytes → BitVec.ofNat 8 (x.toNat / 256 ^ k) = b.getD (s.params.layout.off f + k) 0) ∧
    ∃ c : List Byte, exec (.fieldPut b f v) s = .next (s.showing (.bytes c)) ∧ c.length = b.length ∧
      (∀ k, k < f.bytes → c.getD (s.params.layout.off f + k) 0 = BitVec.ofNat 8 (v / 256 ^ k)) ∧
      (∀ a, (a < s.params.layout.off f ∨ s.params.layout.off f + f.bytes ≤ a) → c.getD a 0 = b.getD a 0) ∧
      exec (.fieldGet c f) s = .next (s.showing (.bits f.width (BitVec.ofNat f.width v))) ∧
      ∀ g, g ≠ f → exec (.fieldGet c g) s = exec (.fieldGet b g) s

/-- R127: `ENC_CORE` serializes every core field little-endian at its offset, into 44 bytes; the
all-zero record encodes to `0^44` and the record with every field at its maximum to `0xFF^44`. -/
def Obligations.EncCorePlacesEveryField : Prop :=
  ∀ (s : State) (r : PartyRecord), s.params.layout.valid = true → r.wf = true →
    ∃ B : List Byte, exec (.encCore r) s = .next (s.showing (.bytes B)) ∧ B.length = 44 ∧
      (∀ f k, k < CoreField.bytes f →
        B.getD (s.params.layout.off f + k) 0 = BitVec.ofNat 8 (r.core.val f / 256 ^ k)) ∧
      ((∀ f, r.core.val f = 0) → B = List.replicate 44 0x00) ∧
      ((∀ f, r.core.val f = 2 ^ f.width - 1) → B = List.replicate 44 0xFF)

/-- R128: `DEC_CORE` never fails on 44 bytes: every core field is assembled from its bytes, and `0^44`
decodes to the all-zero record. -/
def Obligations.DecCoreReadsEveryField : Prop :=
  ∀ (s : State) (B : List Byte), B.length = 44 →
    ∃ c : CoreRecord, exec (.decCore B) s = .next (s.showing (.core c)) ∧
      (∀ f k, k < CoreField.bytes f →
        BitVec.ofNat 8 (c.val f / 256 ^ k) = B.getD (s.params.layout.off f + k) 0) ∧
      (B = List.replicate 44 0x00 → ∀ f, c.val f = 0)

/-- R129: `ENC_CORE` and `DEC_CORE` are mutually inverse, for every valid layout: every record's core
fields are reproduced, and every 44 bytes are. -/
def Obligations.CoreCodecRoundTrips : Prop :=
  ∀ s : State, s.params.layout.valid = true →
    (∀ r : PartyRecord, r.wf = true → ∃ B : List Byte, B.length = 44 ∧
      exec (.encCore r) s = .next (s.showing (.bytes B)) ∧
      exec (.decCore B) s = .next (s.showing (.core r.core))) ∧
    (∀ B : List Byte, B.length = 44 → ∃ c : CoreRecord,
      exec (.decCore B) s = .next (s.showing (.core c)) ∧
      ∀ r : PartyRecord, r.wf = true → r.core = c → exec (.encCore r) s = .next (s.showing (.bytes B)))

/-! ### The codec: names, trailer, slot -/

/-- R130: the first `min(len, L-1)` content bytes, then sentinels; exactly `L` bytes, the last always
0x50. -/
def Obligations.PadStringTruncatesAndPads : Prop :=
  ∀ (s : State) (c : List Byte) (f : NameField) (L : Nat), (f, L) ∈ [(NameField.nickname, 11), (.otName, 7)] →
    ∃ out : List Byte, exec (.padString c f) s = .next (s.showing (.bytes out)) ∧ out.length = L ∧
      (∀ i, i < L → out.getD i 0 = if i < min c.length (L - 1) then c.getD i 0 else 0x50) ∧
      out.getLast? = some 0x50

/-- R137, R281 (D4): `CONTENT` is what stands before the first sentinel, all of it if there is none; of
a padded content it is the content up to its first sentinel, if that fits. -/
def Obligations.ContentStopsAtFirstSentinel : Prop :=
  (∀ (s : State) (F : List Byte), (F.length = 11 ∨ F.length = 7) → ∃ k, k ≤ F.length ∧
    exec (.content F) s = .next (s.showing (.bytes (F.take k))) ∧
    (∀ i, i < k → F.getD i 0 ≠ 0x50) ∧ (k < F.length → F.getD k 0 = 0x50)) ∧
  (∀ (s : State) (c d : List Byte) (f : NameField) (L : Nat), (f, L) ∈ [(NameField.nickname, 11), (.otName, 7)] →
    c.length ≤ L - 1 → (∀ x ∈ c, x ≠ 0x50) → (d = [] ∨ d.head? = some 0x50) → ∃ F : List Byte,
      exec (.padString (c ++ d) f) s = .next (s.showing (.bytes F)) ∧
      exec (.content F) s = .next (s.showing (.bytes c)))

/-- R131, R132 (D4): the trailer is nickname then OT name, raw in both directions, and decoding gives
back what was encoded; `SET_NAME` pads the content into one name field and leaves the rest. -/
def Obligations.TrailerCodecRoundTrips : Prop :=
  (∀ (s : State) (r : PartyRecord), r.wf = true →
    exec (.encTrailer r) s = .next (s.showing (.bytes (r.nickname ++ r.otName))) ∧
    exec (.decTrailer (r.nickname ++ r.otName)) s = .next (s.showing (.names r.nickname r.otName)) ∧
    ∀ c, exec (.setName r .nickname c) s = .next (s.showing (.record { r with nickname := padString c 11 })) ∧
      exec (.setName r .otName c) s = .next (s.showing (.record { r with otName := padString c 7 }))) ∧
  (∀ (s : State) (T : List Byte), T.length = 18 →
    exec (.decTrailer T) s = .next (s.showing (.names (T.take 11) (T.drop 11))) ∧
    ∀ r : PartyRecord, r.nickname = T.take 11 → r.otName = T.drop 11 →
      exec (.encTrailer r) s = .next (s.showing (.bytes T)))

/-- R138: a slot is `ENC_CORE` then `ENC_TRAILER`, and `ENC_SLOT` and `DEC_SLOT` are mutually inverse, for
every valid layout. -/
def Obligations.SlotCodecRoundTrips : Prop :=
  ∀ s : State, s.params.layout.valid = true →
    (∀ r : PartyRecord, r.wf = true → ∃ S : List Byte, S.length = 62 ∧
      exec (.encSlot r) s = .next (s.showing (.bytes S)) ∧
      exec (.encCore r) s = .next (s.showing (.bytes (S.take 44))) ∧
      exec (.encTrailer r) s = .next (s.showing (.bytes (S.drop 44))) ∧
      exec (.decSlot S) s = .next (s.showing (.record r))) ∧
    (∀ S : List Byte, S.length = 62 → ∃ r : PartyRecord, r.wf = true ∧
      exec (.decSlot S) s = .next (s.showing (.record r)) ∧
      exec (.encSlot r) s = .next (s.showing (.bytes S)))

/-! ### The codec: packed sub-fields, builder, metadata -/

/-- R134, R135, R136: a PP byte is `64 * ups + cur`; the getters slice it, and packing what they give
gives the byte back (these laws the spec marks as derived by itself from R134 to R136). -/
def Obligations.PpByteIsSixtyFourUpsPlusCur : Prop :=
  ∀ (s : State) (u : BitVec 2) (c : BitVec 6) (b : Byte),
    exec (.ppPack u c) s = .next (s.showing (.bits 8 (BitVec.ofNat 8 (64 * u.toNat + c.toNat)))) ∧
    exec (.ppGetCur b) s = .next (s.showing (.bits 6 (BitVec.ofNat 6 (b.toNat % 64)))) ∧
    exec (.ppGetUps b) s = .next (s.showing (.bits 2 (BitVec.ofNat 2 (b.toNat / 64)))) ∧
    exec (.ppPack (BitVec.ofNat 2 (b.toNat / 64)) (BitVec.ofNat 6 (b.toNat % 64))) s =
      .next (s.showing (.bits 8 b)) ∧
    exec (.ppGetUps (BitVec.ofNat 8 (64 * u.toNat + c.toNat))) s = .next (s.showing (.bits 2 u)) ∧
    exec (.ppGetCur (BitVec.ofNat 8 (64 * u.toNat + c.toNat))) s = .next (s.showing (.bits 6 c))

/-- R139, R140, R133 (the spec's choices D2 and D3): the four nibbles of `ivData` in listed order, the
most significant first, and the derived HP value from their low bits in that order. -/
def Obligations.IvWordHoldsFourNibbles : Prop :=
  ∀ (s : State) (a d p c : BitVec 4) (w : Half),
    exec (.ivPack a d p c) s = .next (s.showing (.bits 16
      (BitVec.ofNat 16 (4096 * a.toNat + 256 * d.toNat + 16 * p.toNat + c.toNat)))) ∧
    exec (.ivGet .attack w) s = .next (s.showing (.bits 4 (BitVec.ofNat 4 (w.toNat / 4096)))) ∧
    exec (.ivGet .defense w) s = .next (s.showing (.bits 4 (BitVec.ofNat 4 (w.toNat / 256 % 16)))) ∧
    exec (.ivGet .speed w) s = .next (s.showing (.bits 4 (BitVec.ofNat 4 (w.toNat / 16 % 16)))) ∧
    exec (.ivGet .special w) s = .next (s.showing (.bits 4 (BitVec.ofNat 4 (w.toNat % 16)))) ∧
    exec (.ivHp w) s = .next (s.showing (.bits 4 (BitVec.ofNat 4
      (8 * (w.toNat / 4096 % 2) + 4 * (w.toNat / 256 % 2) + 2 * (w.toNat / 16 % 2) + w.toNat % 2)))) ∧
    exec (.ivHp (BitVec.ofNat 16 (4096 * a.toNat + 256 * d.toNat + 16 * p.toNat + c.toNat))) s =
      .next (s.showing (.bits 4 (BitVec.ofNat 4
        (8 * (a.toNat % 2) + 4 * (d.toNat % 2) + 2 * (p.toNat % 2) + c.toNat % 2))))

/-- R145 (its generalisation to every template is the spec's choice D26, the nickname line D5): the
record `BUILD_L1` constructs, field by field; its level fields are equal (R37). -/
def Obligations.BuilderFillsEveryField : Prop :=
  ∀ (s : State) (tpl : SpeciesTemplate) (name : List Byte) (id : Half), ∃ r : PartyRecord,
    exec (.buildL1 tpl name id) s = .next (s.showing (.record r)) ∧ r.wf = true ∧
    r.nickname = padString tpl.nickContent 11 ∧ r.otName = padString name 7 ∧
    r.core.speciesId = tpl.speciesId ∧ r.core.maxHp = tpl.hpL1 ∧ r.core.currentHp = tpl.hpL1 ∧
    r.core.attack = tpl.attackL1 ∧ r.core.defense = tpl.defenseL1 ∧ r.core.speed = tpl.speedL1 ∧
    r.core.special = tpl.specialL1 ∧ r.core.level = 1 ∧ r.core.levelInBox = 1 ∧
    r.core.statusCondition = 0 ∧ r.core.type1 = tpl.type1 ∧ r.core.type2 = tpl.type2 ∧
    r.core.catchRateOrHeldItem = tpl.catchRateOrHeldItem ∧ r.core.move1 = tpl.move1 ∧
    r.core.move2 = tpl.move2 ∧ r.core.move3 = tpl.move3 ∧ r.core.move4 = tpl.move4 ∧
    r.core.pp1 = BitVec.ofNat 8 tpl.pp1.toNat ∧ r.core.pp2 = BitVec.ofNat 8 tpl.pp2.toNat ∧
    r.core.pp3 = BitVec.ofNat 8 tpl.pp3.toNat ∧ r.core.pp4 = BitVec.ofNat 8 tpl.pp4.toNat ∧
    r.core.otId = id ∧ r.core.expPoints = 0 ∧ r.core.hpEv = 0 ∧ r.core.attackEv = 0 ∧
    r.core.defenseEv = 0 ∧ r.core.speedEv = 0 ∧ r.core.specialEv = 0 ∧ r.core.ivData = 0

/-- R146, R58 (the spec's choice D10): the 27 bytes of the metadata stream. -/
def Obligations.MetadataStreamLayout : Prop :=
  ∀ (s : State) (S : List Byte), S.length = 62 → ∃ M : List Byte,
    exec (.metaOut S) s = .next (s.showing (.bytes M)) ∧ M.length = 27 ∧
    (∀ i, i < 7 → M.getD i 0 = S.getD (55 + i) 0) ∧ M.getD 7 0 = 0x01 ∧
    M.getD 8 0 = S.getD (s.params.layout.off .speciesId) 0 ∧
    (∀ i, 9 ≤ i → i < 27 → M.getD i 0 = S.getD (35 + i) 0)

/-- Each `FIELD` row of the core fields (R102, R29) is `FIELD_GET` of its field, in every state, under every
layout and on every operand: that a row run as an operation reads its field is the model's reading (log
entry 23). By R126 and R56, under `LAYOUT_LIST` (the listed order is the spec's choice D1),
read from a core array or from a slot, it has its offset, width and byte order. -/
def Obligations.FieldRowsUnderLayoutList : Prop :=
  (∀ (s : State) (b : List Byte) (f : CoreField), exec (f.row b) s = exec (.fieldGet b f) s) ∧
  ∀ (s : State) (b : List Byte), s.params.layout = layoutList → (b.length = 44 ∨ b.length = 62) →
    exec (.fieldSpeciesId b) s = .next (s.showing (.bits 8 (b.getD 0 0))) ∧
    exec (.fieldCurrentHp b) s = .next (s.showing (.bits 16 (word16 b 1))) ∧
    exec (.fieldMaxHp b) s = .next (s.showing (.bits 16 (word16 b 3))) ∧
    exec (.fieldAttack b) s = .next (s.showing (.bits 16 (word16 b 5))) ∧
    exec (.fieldDefense b) s = .next (s.showing (.bits 16 (word16 b 7))) ∧
    exec (.fieldSpeed b) s = .next (s.showing (.bits 16 (word16 b 9))) ∧
    exec (.fieldSpecial b) s = .next (s.showing (.bits 16 (word16 b 11))) ∧
    exec (.fieldLevel b) s = .next (s.showing (.bits 8 (b.getD 13 0))) ∧
    exec (.fieldLevelInBox b) s = .next (s.showing (.bits 8 (b.getD 14 0))) ∧
    exec (.fieldStatusCondition b) s = .next (s.showing (.bits 8 (b.getD 15 0))) ∧
    exec (.fieldType1 b) s = .next (s.showing (.bits 8 (b.getD 16 0))) ∧
    exec (.fieldType2 b) s = .next (s.showing (.bits 8 (b.getD 17 0))) ∧
    exec (.fieldCatchRateOrHeldItem b) s = .next (s.showing (.bits 8 (b.getD 18 0))) ∧
    exec (.fieldMove1 b) s = .next (s.showing (.bits 8 (b.getD 19 0))) ∧
    exec (.fieldMove2 b) s = .next (s.showing (.bits 8 (b.getD 20 0))) ∧
    exec (.fieldMove3 b) s = .next (s.showing (.bits 8 (b.getD 21 0))) ∧
    exec (.fieldMove4 b) s = .next (s.showing (.bits 8 (b.getD 22 0))) ∧
    exec (.fieldPp1 b) s = .next (s.showing (.bits 8 (b.getD 23 0))) ∧
    exec (.fieldPp2 b) s = .next (s.showing (.bits 8 (b.getD 24 0))) ∧
    exec (.fieldPp3 b) s = .next (s.showing (.bits 8 (b.getD 25 0))) ∧
    exec (.fieldPp4 b) s = .next (s.showing (.bits 8 (b.getD 26 0))) ∧
    exec (.fieldOtId b) s = .next (s.showing (.bits 16 (word16 b 27))) ∧
    exec (.fieldExpPoints b) s = .next (s.showing (.bits 24 (word24 b 29))) ∧
    exec (.fieldHpEv b) s = .next (s.showing (.bits 16 (word16 b 32))) ∧
    exec (.fieldAttackEv b) s = .next (s.showing (.bits 16 (word16 b 34))) ∧
    exec (.fieldDefenseEv b) s = .next (s.showing (.bits 16 (word16 b 36))) ∧
    exec (.fieldSpeedEv b) s = .next (s.showing (.bits 16 (word16 b 38))) ∧
    exec (.fieldSpecialEv b) s = .next (s.showing (.bits 16 (word16 b 40))) ∧
    exec (.fieldIvData b) s = .next (s.showing (.bits 16 (word16 b 42)))

/-- R102, R132, R57, R51: the `FIELD` rows of the name fields, from a trailer and from a slot; the raw form
is the spec's choice D4, and that a row run as an operation reads its field from either array is the
model's reading (log entry 23). -/
def Obligations.NameFieldRows : Prop :=
  ∀ s : State,
    (∀ T : List Byte, T.length = 18 →
      exec (.fieldNickname T) s = .next (s.showing (.bytes (T.take 11))) ∧
      exec (.fieldOtName T) s = .next (s.showing (.bytes (T.drop 11)))) ∧
    (∀ S : List Byte, S.length = 62 →
      exec (.fieldNickname S) s = .next (s.showing (.bytes ((S.drop 44).take 11))) ∧
      exec (.fieldOtName S) s = .next (s.showing (.bytes (S.drop 55))))

/-- R120: every codec operation on typed operands is a total, pure function of its operands (and of the
block's fixed layout): one value, put out in every state of a block with those parameters, and no state
of the block changes. -/
def Obligations.CodecIsTotalAndPure : Prop :=
  ∀ i : Instr, i.isCodec = true → i.wf = true →
    ∃ value : Params → Value, ∀ s : State, exec i s = .next (s.showing (value s.params))

/-- R121 (the spec's choice D27): a codec operation whose operands are not typed cannot be formed; the
model refuses it by name in every state. -/
def Obligations.CodecRefusesUntypedOperands : Prop :=
  ∀ i : Instr, i.isCodec = true → i.wf = false → ∀ s : State, exec i s = .refused .operandIllTyped

/-! ### The engine steps -/

/-- R182, R183, R184 (the budget's meaning is the spec's choice D8, the symmetry D7): each handshake
sub-step sends its code and goes on when it receives it; a mismatch is counted while the budget lasts
and then fails the attempt. -/
def Obligations.HandshakeSubSteps : Prop :=
  ∀ (s : State) (rx : Byte),
    (s.st = .hsMode → exec (.hsMode rx) s = .next (
      if rx = s.params.modeCode then
        { s.swapped s.params.modeCode (.byte rx) with st := .hsMaster, retry := 0 }
      else if s.retry < s.params.retryBudget then
        { s.swapped s.params.modeCode (.byte rx) with retry := s.retry + 1 }
      else (s.swapped s.params.modeCode (.byte rx)).raised .handshakeMismatch)) ∧
    (s.st = .hsMaster → exec (.hsMaster rx) s = .next (
      if rx = s.params.masterCode then
        { s.swapped s.params.masterCode (.byte rx) with st := .hsVersion, retry := 0 }
      else if s.retry < s.params.retryBudget then
        { s.swapped s.params.masterCode (.byte rx) with retry := s.retry + 1 }
      else (s.swapped s.params.masterCode (.byte rx)).raised .handshakeMismatch)) ∧
    (s.st = .hsVersion → exec (.hsVersion rx) s = .next (
      if rx = s.params.versionCode then
        { s.swapped s.params.versionCode (.byte rx) with st := .entropy, retry := 0, idx := 0 }
      else if s.retry < s.params.retryBudget then
        { s.swapped s.params.versionCode (.byte rx) with retry := s.retry + 1 }
      else (s.swapped s.params.versionCode (.byte rx)).raised .handshakeMismatch))

/-- R185 (the use of the fills is the spec's choice D9): an `ENTROPY` step sends the entropy source's
next byte (a free value where it names none), discards what it receives and counts to `N_ENTROPY`. -/
def Obligations.EntropyStepDiscardsTheFill : Prop :=
  ∀ (s : State) (rx : Byte), s.st = .entropy → s.idx < s.params.nEntropy →
    ∃ fill : Byte, (∀ b, s.draws.head? = some b → fill = b) ∧
      exec (.entropy rx) s = .next
        { s with
          wire := s.wire ++ [⟨fill, .byte rx⟩], oracle := s.oracle + 1, draws := s.draws.tail
          st := if s.idx + 1 = s.params.nEntropy then .metadata else .entropy
          idx := if s.idx + 1 = s.params.nEntropy then 0 else s.idx + 1 }

/-- R186 (no validation is the spec's choice D30, the wired trailer the OPEN parameter of D11): a
`METADATA` step sends byte `idx` of this side's stream, stores the received byte at slot offset
`35 + idx` only if the trailer is wired and `idx` is at least 9, and counts to 27. Every other byte of
`RCV` reads as before. -/
def Obligations.MetadataStepKeepsTheTrailerIfWired : Prop :=
  ∀ (s : State) (rx : Byte), s.Inv → s.st = .metadata →
    ∃ (tx : Byte) (rcv : Memory),
      (s.idx < 7 → tx = s.out.read (55 + s.idx)) ∧ (s.idx = 7 → tx = 0x01) ∧
      (s.idx = 8 → tx = s.out.read (s.params.layout.off .speciesId)) ∧
      (9 ≤ s.idx → tx = s.out.read (35 + s.idx)) ∧
      rcv.wf = true ∧
      (∀ a, rcv.read a = if s.params.wireTrailer = true ∧ 9 ≤ s.idx ∧ a = 35 + s.idx then rx else s.rcv.read a) ∧
      exec (.metadata rx) s = .next
        { s.swapped tx (.byte rx) with
          rcv := rcv
          st := if s.idx = 26 then .select else .metadata
          idx := if s.idx = 26 then 0 else s.idx + 1 }

/-- R187, R91 (the byte's encoding is the spec's choice D12): a `SELECT` step sends `SEL_BASE`; the
received byte decodes to `(rx - SEL_BASE) mod 256`, and any index but 0 fails the attempt. -/
def Obligations.SelectStepChecksTheIndex : Prop :=
  ∀ (s : State) (rx : Byte), s.st = .select →
    exec (.select rx) s = .next (
      if (rx.toNat + 256 - s.params.selBase.toNat) % 256 < 1 then
        { s.swapped s.params.selBase (.byte rx) with st := .record, idx := 0 }
      else (s.swapped s.params.selBase (.byte rx)).raised .malformedSelection)

/-- R188: a `RECORD` step sends `OUT[idx]`, stores the received byte at `RCV[idx]` and counts to 44; every
other byte of `RCV` reads as before, the trailer among them. -/
def Obligations.RecordStepStoresOneByte : Prop :=
  ∀ (s : State) (rx : Byte), s.Inv → s.st = .record →
    ∃ rcv : Memory, rcv.wf = true ∧ rcv.read s.idx = rx ∧
      (∀ a, a ≠ s.idx → rcv.read a = s.rcv.read a) ∧ s.idx < 44 ∧
      exec (.record rx) s = .next
        { s.swapped (s.out.read s.idx) (.byte rx) with
          rcv := rcv
          st := if s.idx = 43 then .confirm else .record
          idx := if s.idx = 43 then 0 else s.idx + 1 }

/-- R189 (the failure's name is the spec's choice D13): a `CONFIRM` step sends `ACK_CODE`; on a match the
attempt is complete and reported, on a mismatch it fails, with no retry. -/
def Obligations.ConfirmStepEndsTheAttempt : Prop :=
  ∀ (s : State) (rx : Byte), s.st = .confirm →
    exec (.confirm rx) s = .next (
      if rx = s.params.ackCode then
        { s.swapped s.params.ackCode (.byte rx) with
          st := .complete, reports := s.reports ++ [.result .complete .none s.rcv.slot] }
      else (s.swapped s.params.ackCode (.byte rx)).raised .confirmMismatch)

/-- R190: a timeout in any busy phase fails the attempt with `LINK_TIMEOUT`; no byte of `RCV` is written,
and `idx` and `retry` keep their values. -/
def Obligations.TimeoutFailsTheAttempt : Prop :=
  ∀ s : State, s.st.busy = true → ∃ tx : Byte, s.tx = some tx ∧
    exec .timeoutAny s = .next
      { s with
        wire := s.wire ++ [⟨tx, .timeout⟩], oracle := s.oracle + 1
        draws := if s.st = .entropy then s.draws.tail else s.draws
        st := .failed, err := .linkTimeout
        reports := s.reports ++ [.result .failed .linkTimeout s.rcv.slot] }

/-- R181, U25: a pair of state and operation that the transition table does not list has no step: an
engine step outside its phase or past its count, a timeout or an answer with no exchange pending. The
model refuses it by name. By R223 the two bytes that are commands are none of `CMD_NOP`'s; that the row
run with one of them is refused is the model's choice (log entry 14). -/
def Obligations.StepsOutsideTheTableAreRefused : Prop :=
  ∀ (s : State) (rx : Byte),
    (s.st ≠ .hsMode → exec (.hsMode rx) s = .refused .noTransition) ∧
    (s.st ≠ .hsMaster → exec (.hsMaster rx) s = .refused .noTransition) ∧
    (s.st ≠ .hsVersion → exec (.hsVersion rx) s = .refused .noTransition) ∧
    (s.st ≠ .entropy ∨ s.params.nEntropy ≤ s.idx → exec (.entropy rx) s = .refused .noTransition) ∧
    (s.st ≠ .metadata ∨ 27 ≤ s.idx → exec (.metadata rx) s = .refused .noTransition) ∧
    (s.st ≠ .select → exec (.select rx) s = .refused .noTransition) ∧
    (s.st ≠ .record ∨ 44 ≤ s.idx → exec (.record rx) s = .refused .noTransition) ∧
    (s.st ≠ .confirm → exec (.confirm rx) s = .refused .noTransition) ∧
    (s.st.busy = false → exec .timeoutAny s = .refused .noTransition) ∧
    (∀ (a : Answer) (xs : List Input), s.st.busy = false → s.held = [] → s.inputs = .answer a :: xs →
      step s = .refused (.undecodable .noExchangePending)) ∧
    exec (.cmdNop 0x74) s = .refused .operandIllTyped ∧ exec (.cmdNop 0x68) s = .refused .operandIllTyped

/-- R96: for each phase, the byte transmitted and what the received byte is decoded as; a block that is
not busy transmits nothing and decodes no answer. -/
def Obligations.WireBytesByPhase : Prop :=
  ∀ (s : State) (rx : Byte),
    (s.st = .hsMode → s.tx = some s.params.modeCode ∧ decode s.st (.answer (.byte rx)) = .ok (.hsMode rx)) ∧
    (s.st = .hsMaster → s.tx = some s.params.masterCode ∧ decode s.st (.answer (.byte rx)) = .ok (.hsMaster rx)) ∧
    (s.st = .hsVersion → s.tx = some s.params.versionCode ∧ decode s.st (.answer (.byte rx)) = .ok (.hsVersion rx)) ∧
    (s.st = .entropy → (∀ b, s.draws.head? = some b → s.tx = some b) ∧ s.tx.isSome = true ∧
      decode s.st (.answer (.byte rx)) = .ok (.entropy rx)) ∧
    (s.st = .metadata → (∀ M, exec (.metaOut s.out.slot) s = .next (s.showing (.bytes M)) → s.tx = some (M.getD s.idx 0)) ∧
      decode s.st (.answer (.byte rx)) = .ok (.metadata rx)) ∧
    (s.st = .select → s.tx = some s.params.selBase ∧ decode s.st (.answer (.byte rx)) = .ok (.select rx)) ∧
    (s.st = .record → s.tx = some (s.out.read s.idx) ∧ decode s.st (.answer (.byte rx)) = .ok (.record rx)) ∧
    (s.st = .confirm → s.tx = some s.params.ackCode ∧ decode s.st (.answer (.byte rx)) = .ok (.confirm rx)) ∧
    (s.st = .idle ∨ s.st = .complete ∨ s.st = .failed → s.tx = none ∧
      decode s.st (.answer (.byte rx)) = .error .noExchangePending)

/-! ### The transport -/

/-- R162, R180: an `XCHG` with the byte of the current phase is the step of that phase on its answer: it
completes, with one exchange on the wire. The block issues no other exchange. -/
def Obligations.ExchangeIsTheEngineStep : Prop :=
  ∀ (s : State) (tx : Byte) (ans : Answer),
    (s.tx = some tx → ∃ op : Instr, decode s.st (.answer ans) = .ok op ∧
      exec (.xchg tx ans) s = exec op s ∧
      (s.Inv → ∃ t, exec (.xchg tx ans) s = .next t ∧ t.wire = s.wire ++ [⟨tx, ans⟩])) ∧
    (s.tx ≠ some tx → exec (.xchg tx ans) s = .refused .exchangeNotIssued)

/-- R161, R28: `CONFIGURE` on a block that is not busy hands the five values to the adapter unchanged and
changes nothing else; while busy it has no meaning. The spec's choice D22 asks for one call before the
first `'t'`; that a call completes in every non-busy state, `COMPLETE` and `FAILED` too, and may be
repeated, is the model's choice (log entry 11). -/
def Obligations.ConfigureRecordsTheValues : Prop :=
  ∀ (s : State) (c : LinkConfig),
    (s.st.busy = false → exec (.configure c) s = .next { s with link := some c }) ∧
    (s.st.busy = true → exec (.configure c) s = .refused .configureWhileBusy)

/-- R28, R161: no rule of the block reads the transport configuration: with another one, every operation
does the same to everything else. -/
def Obligations.LinkConfigurationIsNeverRead : Prop :=
  ∀ (i : Instr) (s t : State) (l : Option LinkConfig), exec i s = .next t →
    ∃ l' : Option LinkConfig, exec i { s with link := l } = .next { t with link := l' } ∧
      ((∀ c, i ≠ .configure c) → l' = l ∧ t.link = s.link)

/-! ### The commands -/

/-- R221: `'t'` on a block that is not busy builds `OUT` with `BUILD_L1` and `ENC_SLOT` from the
configuration inputs, zeroes all 62 bytes of `RCV`, clears the registers and starts at `HS_MODE`, in one
step; nothing else changes. -/
def Obligations.TradeStartsAFreshAttempt : Prop :=
  ∀ s : State, s.st.busy = false →
    ∃ (out rcv : Memory) (S : List Byte),
      exec .cmdTrade s = .next
        { s with out := out, rcv := rcv, err := .none, retry := 0, idx := 0, st := .hsMode } ∧
      exec (.encSlot (buildL1 s.config.template s.config.trainerName s.config.trainerId)) s =
        .next (s.showing (.bytes S)) ∧ S.length = 62 ∧
      out.wf = true ∧ (∀ a, out.read a = S.getD a 0) ∧
      rcv.wf = true ∧ (∀ a, rcv.read a = 0x00)

/-- R222 (the report's form is the spec's choice D17): `'h'` on a block that is not busy emits the help
report and changes no state. -/
def Obligations.HelpReportsAndChangesNothing : Prop :=
  ∀ s : State, s.st.busy = false →
    exec .cmdHelp s = .next { s with reports := s.reports ++ [.help s.params.helpText] }

/-- R223: every byte other than 0x74 and 0x68, on a block that is not busy, changes nothing and emits
nothing. -/
def Obligations.OtherBytesAreNoOps : Prop :=
  ∀ (s : State) (b : Byte), s.st.busy = false → b ≠ 0x74 → b ≠ 0x68 → exec (.cmdNop b) s = .next s

/-- R225 (the policies are the spec's choice D16): a command byte offered while busy, whichever it is,
stays with the host transport under `Hold` and is discarded under `Drop`; no state of the block changes.
When the block is no longer busy, held bytes are accepted in order (R33); that they come before anything
else that is offered is the model's choice (log entry 20). That a command row means the same as its byte
offered, in every state, is the model's choice too (log entry 14). -/
def Obligations.BusyCommandIsHeldOrDropped : Prop :=
  (∀ (s : State) (b : Byte), s.st.busy = true →
    decode s.st (.host [b]) = .ok (.cmdWhileBusy b) ∧
    (s.params.busyPolicy = .hold → exec (.cmdWhileBusy b) s = .next { s with held := s.held ++ [b] }) ∧
    (s.params.busyPolicy = .drop → exec (.cmdWhileBusy b) s = .next s)) ∧
  (∀ (s : State) (b : Byte) (bs : List Byte), s.st.busy = false → s.held = b :: bs →
    step s = exec (decodeCommand b) { s with held := bs }) ∧
  (∀ s : State, exec .cmdTrade s = exec (.cmdWhileBusy 0x74) s ∧ exec .cmdHelp s = exec (.cmdWhileBusy 0x68) s ∧
    ∀ b : Byte, b ≠ 0x74 → b ≠ 0x68 → exec (.cmdNop b) s = exec (.cmdWhileBusy b) s)

/-- R81, R220: every command byte, when it is accepted, is exactly one of the three commands; while busy
it is `CMD_WHILE_BUSY`. -/
def Obligations.CommandByteDecoding : Prop :=
  ∀ (st : Phase) (b : Byte),
    (st.busy = false → decode st (.host [b]) =
      .ok (if b = 0x74 then .cmdTrade else if b = 0x68 then .cmdHelp else .cmdNop b)) ∧
    (st.busy = true → decode st (.host [b]) = .ok (.cmdWhileBusy b))

/-- R97(a), (c): no command byte and no wire byte is illegal: every command byte is an operation in
every phase, and every answer is one in every busy phase, well formed and selected in it. -/
def Obligations.NoByteIsIllegal : Prop :=
  ∀ (st : Phase) (b : Byte) (a : Answer),
    (∃ i : Instr, decode st (.host [b]) = .ok i ∧ i.wf = true ∧ i.selectedIn st = true) ∧
    (st.busy = true → ∃ i : Instr, decode st (.answer a) = .ok i ∧ i.wf = true ∧ i.selectedIn st = true)

/-! ### Encoding -/

/-- Words written out: command bytes from R81, wire bytes from R96, packed sub-fields from R84 and R85. The
spec gives a codec row no word (R102): the calls of rows 31 and 35 are in the model's own notation (log
entry 7), and what a table word selects is the model's choice (log entry 8). -/
def Obligations.SampleWordsDecode : Prop :=
  decode .idle (.host [0b01110100]) = .ok .cmdTrade ∧
  decode .failed (.host [0b01101000]) = .ok .cmdHelp ∧
  decode .complete (.host [0b01010100]) = .ok (.cmdNop 0x54) ∧
  decode .select (.answer (.byte 0b01110001)) = .ok (.select 0x71) ∧
  decode .record (.answer .timeout) = .ok .timeoutAny ∧
  decode .idle (.call 31 [.num 0b11101000]) = .ok (.ppPack 3 40) ∧
  decode .idle (.call 35 [.num 0b1010010111000011]) = .ok (.ivPack 10 5 12 3) ∧
  decodeTableWord 8 0x74 = some .cmdTrade ∧ decodeTableWord 8 0x68 = some .cmdHelp

/-- Decoding what an operation is encoded as gives the operation back, for every well-formed operation
in every phase in which its row is selected. -/
def Obligations.DecodeOfEncode : Prop :=
  ∀ (i : Instr) (st : Phase), i.wf = true → i.selectedIn st = true → decode st (encode i) = .ok i

/-- Each operation has one encoding: whatever decodes to an operation is its encoding, and the operation
is well formed and selected in the phase. -/
def Obligations.EncodeOfDecode : Prop :=
  ∀ (st : Phase) (x : Input) (i : Instr), decode st x = .ok i →
    encode i = x ∧ i.wf = true ∧ i.selectedIn st = true

/-! ### The step -/

/-- R11, R61: what the block consumes next, when it decodes to an operation, is run by the step, on the
state that has consumed it; consuming changes only the queues of what is still to come. -/
def Obligations.StepRunsTheDecodedOperation : Prop :=
  ∀ (s u : State) (x : Input) (i : Instr), s.pending = some (x, u) → decode s.st x = .ok i →
    step s = exec i u ∧ u = { s with inputs := u.inputs, held := u.held }

/-- When nothing is offered a non-busy block changes nothing: that such a poll is a step at all is the
model's choice (log entry 21; that no state changes without a command is R191). A change of the configuration
inputs (R64) changes only them: that it is an event of its own is the model's choice (log entry 18). A
reset (R270, R271; the event is the spec's choice D19) puts the six pieces of state at their reset
values, emits nothing and issues no exchange; the value of `OUT` is the model's choice (log entry 3), and
so is that what is outside the block keeps what it holds (log entry 18). -/
def Obligations.StepTakesTheEnvironmentsEvents : Prop :=
  ∀ s : State,
    (s.st.busy = false → s.held = [] → s.inputs = [] → step s = .next s) ∧
    (∀ c xs, s.inputs = .config c :: xs → (s.st.busy = true ∨ s.held = []) →
      step s = .next { s with inputs := xs, config := c }) ∧
    (∀ xs, s.inputs = .reset :: xs → (s.st.busy = true ∨ s.held = []) →
      step s = .next { s with
        inputs := xs, out := [], rcv := [], st := .idle, idx := 0, retry := 0, err := .none })

/-- The host's interface; all of it is the model's choice (log entry 8). The state that `withFetchWord`
gives runs what the table word selects as its next step, with everything the block holds (but a busy
phase, which becomes `IDLE`) and everything offered before kept, in one queue. -/
def Obligations.FetchWordRunsNext : Prop :=
  ∀ (s : State) (w : Nat) (i : Instr), decodeTableWord 8 w = some i →
    step (s.withFetchWord 8 w) = exec i
      { s with
        st := if s.st.busy then .idle else s.st
        held := []
        inputs := (s.held.map fun b => Input.host [b]) ++ s.inputs }

/-- R36, R270 (the values are the spec's choice D19): the registers and `RCV` after reset, with nothing
put out (the value of `OUT` there is the model's choice, log entry 3, and is not stated). -/
def Obligations.ResetValues : Prop :=
  State.reset.st = .idle ∧ State.reset.err = .none ∧ State.reset.idx = 0 ∧ State.reset.retry = 0 ∧
    (∀ a, State.reset.rcv.read a = 0x00) ∧ State.reset.reports = [] ∧ State.reset.wire = []

/-- The invariant holds at reset. -/
def Obligations.InvariantHoldsAtReset : Prop := State.reset.Inv

/-- R20 to R25, R39: every step keeps the invariant. -/
def Obligations.StepKeepsTheInvariant : Prop :=
  ∀ s t : State, s.Inv → step s = .next t → t.Inv

/-- R163, R164, R63: a busy block is never stuck: whatever the answer is, the engine step takes place,
and the byte it transmits is the one the state before the step fixes. -/
def Obligations.BusyBlockAlwaysSteps : Prop :=
  ∀ (s : State) (ans : Answer), s.Inv → s.st.busy = true →
    ∃ (tx : Byte) (t : State), s.tx = some tx ∧ s.linkStep ans = .next t ∧
      t.wire = s.wire ++ [⟨tx, ans⟩]

/-! ### Rules of the whole machine -/

/-- R31: an operation keeps the phase and moves the counter by at most 1, or moves a busy phase to its
successor or to `FAILED`, or is the `'t'` command taking a non-busy state to `HS_MODE`. -/
def Obligations.PositionMovesInTheFixedOrder : Prop :=
  ∀ (i : Instr) (s t : State), exec i s = .next t →
    (t.st = s.st ∧ (t.idx = s.idx ∨ (s.st.busy = true ∧ t.idx = s.idx + 1))) ∨
    (s.st.busy = true ∧ s.st.successor = some t.st ∧ (t.idx = 0 ∨ t.idx = s.idx)) ∨
    (s.st.busy = true ∧ t.st = .failed ∧ t.idx = s.idx) ∨
    (s.st.busy = false ∧ (i = .cmdTrade ∨ i = .cmdWhileBusy 0x74) ∧ t.st = .hsMode ∧ t.idx = 0)

/-- R38, R55: an accepted `'t'` writes `OUT` and zeroes `RCV`; every other operation leaves `OUT` alone, and
`RCV` too but for one byte: the received byte, which `RECORD` stores at `idx`, and `METADATA` at `35 + idx`
when the trailer is wired and `idx` is at least 9 (either step also as the `XCHG` it answers). -/
def Obligations.SlotsHaveFewWriters : Prop :=
  ∀ (i : Instr) (s t : State), s.rcv.wf = true → exec i s = .next t →
    (s.st.busy = false ∧ (i = .cmdTrade ∨ i = .cmdWhileBusy 0x74) →
      (∃ S : List Byte, exec (.encSlot (buildL1 s.config.template s.config.trainerName s.config.trainerId)) s =
        .next (s.showing (.bytes S)) ∧ ∀ a, t.out.read a = S.getD a 0) ∧ ∀ a, t.rcv.read a = 0x00) ∧
    (¬ (s.st.busy = false ∧ (i = .cmdTrade ∨ i = .cmdWhileBusy 0x74)) →
      t.out = s.out ∧
      (s.received i = none → t.rcv = s.rcv) ∧
      ∀ a v, s.received i = some (a, v) →
        t.rcv.read a = v ∧ ∀ b, b ≠ a → t.rcv.read b = s.rcv.read b)

/-- R244 (the spec's choice D29), R241: a step that enters `FAILED` records a cause and reports it; `OUT`,
`RCV`, `idx` and `retry` keep their values. -/
def Obligations.FailuresArePrecise : Prop :=
  ∀ (i : Instr) (s t : State), exec i s = .next t → t.st = .failed → s.st ≠ .failed →
    s.st.busy = true ∧ t.err ≠ .none ∧ t.reports = s.reports ++ [.result .failed t.err s.rcv.slot] ∧
    t.out = s.out ∧ t.rcv = s.rcv ∧ t.idx = s.idx ∧ t.retry = s.retry

/-- R226 (the reports' form is the spec's choice D17): a report is emitted when `COMPLETE` is entered,
when `FAILED` is entered and by `CMD_HELP`, one report each, and nowhere else. -/
def Obligations.ReportsAtThreePoints : Prop :=
  ∀ (i : Instr) (s t : State), exec i s = .next t →
    (s.st.busy = true ∧ t.st = .complete ∧ t.reports = s.reports ++ [.result .complete .none t.rcv.slot]) ∨
    (s.st.busy = true ∧ t.st = .failed ∧ t.reports = s.reports ++ [.result .failed t.err t.rcv.slot]) ∨
    (s.st.busy = false ∧ t.st = s.st ∧ t.reports = s.reports ++ [.help s.params.helpText] ∧
      (i = .cmdHelp ∨ i = .cmdWhileBusy 0x68)) ∨
    (t.reports = s.reports ∧ (t.st = .complete ∨ t.st = .failed → t.st = s.st) ∧ i ≠ .cmdHelp) ∨
    (t.reports = s.reports ∧ i = .cmdHelp ∧ s.st.busy = true ∧ t.st = s.st)

/-- R246, R285: the only way out of `FAILED` is an accepted `'t'`, which clears `err`, zeroes `RCV` and
starts at `HS_MODE`; any other operation leaves the failure as it is. -/
def Obligations.FailedIsLeftOnlyByTrade : Prop :=
  ∀ (i : Instr) (s t : State), s.st = .failed → exec i s = .next t →
    (t.st = .failed ∧ t.err = s.err ∧ t.rcv = s.rcv ∧ t.out = s.out ∧ t.idx = s.idx ∧ t.retry = s.retry) ∨
    (exec .cmdTrade s = .next t ∧ (i = .cmdTrade ∨ i = .cmdWhileBusy 0x74) ∧ t.st = .hsMode ∧
      t.err = .none ∧ (∀ a, t.rcv.read a = 0x00) ∧ t.idx = 0 ∧ t.retry = 0)

/-- R64 (the spec's choice D20): a change of the configuration inputs during an attempt is not seen: with
other inputs a busy block does the same. -/
def Obligations.ConfigurationIsNotSeenWhileBusy : Prop :=
  ∀ (i : Instr) (s t : State) (c : ConfigInputs), s.st.busy = true → exec i s = .next t →
    exec i { s with config := c } = .next { t with config := c }

/-- R228: after an accepted `'t'` the state of the block is a function of the configuration inputs and
parameters alone, whatever the attempts before left. -/
def Obligations.AttemptsAreIndependent : Prop :=
  ∀ s s' t t' : State, s.st.busy = false → s'.st.busy = false → s.params = s'.params → s.config = s'.config →
    exec .cmdTrade s = .next t → exec .cmdTrade s' = .next t' →
    t.out = t'.out ∧ t.rcv = t'.rcv ∧ t.st = t'.st ∧ t.idx = t'.idx ∧ t.retry = t'.retry ∧ t.err = t'.err

/-- R272, R26 to R28, R32: no operation changes the parameters or the configuration inputs, what is still
to come, or what has been exchanged and reported before. -/
def Obligations.OperationsLeaveTheEnvironmentAlone : Prop :=
  ∀ (i : Instr) (s t : State), exec i s = .next t →
    t.params = s.params ∧ t.config = s.config ∧ t.inputs = s.inputs ∧
    s.wire <+: t.wire ∧ s.reports <+: t.reports ∧ s.held <+: t.held ∧ t.draws <:+ s.draws

/-! ### Attempts -/

/-- R192, R98: an attempt in which every answer is a recognised byte performs exactly `76 + N_ENTROPY`
exchanges and ends in `COMPLETE`, with the received core bytes in `RCV[0..43]` and the received trailer
in `RCV[44..61]` if it is wired, else zeros. -/
def Obligations.CleanAttemptCompletes : Prop :=
  ∀ (s : State) (fill md core : List Byte) (rest : List Input), s.Inv → s.st = .hsMode →
    fill.length = s.params.nEntropy → md.length = 27 → core.length = 44 →
    s.inputs = (recognised s.params fill md core).map Input.answer ++ rest →
    ∃ t : State, Host.Core.run Sys2Proof.core (76 + s.params.nEntropy) s = .next t ∧
      t.st = .complete ∧ t.err = .none ∧ t.inputs = rest ∧ t.out = s.out ∧
      t.wire.length = s.wire.length + (76 + s.params.nEntropy) ∧
      (∀ a, a < 44 → t.rcv.read a = core.getD a 0) ∧
      (∀ a, 44 ≤ a → a < 62 → t.rcv.read a = if s.params.wireTrailer = true then md.getD (a - 35) 0 else 0x00) ∧
      t.reports = s.reports ++ [.result .complete .none t.rcv.slot]

/-- R192: every attempt ends: whatever the answers are, after at most
`76 + N_ENTROPY + 3 * RETRY_BUDGET` of them the block is in `COMPLETE` or `FAILED`. -/
def Obligations.EveryAttemptEnds : Prop :=
  ∀ (s : State) (answers : List Answer) (rest : List Input), s.Inv → s.st = .hsMode → s.retry = 0 →
    76 + s.params.nEntropy + 3 * s.params.retryBudget ≤ answers.length →
    s.inputs = answers.map Input.answer ++ rest →
    ∃ (n : Nat) (t : State), n ≤ 76 + s.params.nEntropy + 3 * s.params.retryBudget ∧
      Host.Core.run Sys2Proof.core n s = .next t ∧ (t.st = .complete ∨ t.st = .failed) ∧
      t.inputs = (answers.drop n).map Input.answer ++ rest

/-- R193: two blocks over a clean loopback, with equal wire codes, selection base and entropy count, both
at the start of an attempt, both complete, and each has received the other's outgoing core block, and
its trailer where this side wires it. R166(c), R251: two blocks in `IDLE` come to that start each by its
own host's `'t'`, whichever comes first: the side that started waits, however long, until the other
becomes busy; or its exchange times out, and its attempt fails with the other side as it was. -/
def Obligations.LoopbackTradeCompletes : Prop :=
  (∀ p : Pair, p.a.Inv → p.b.Inv → p.a.st = .hsMode → p.b.st = .hsMode →
    p.a.params.modeCode = p.b.params.modeCode → p.a.params.masterCode = p.b.params.masterCode →
    p.a.params.versionCode = p.b.params.versionCode → p.a.params.ackCode = p.b.params.ackCode →
    p.a.params.selBase = p.b.params.selBase → p.a.params.nEntropy = p.b.params.nEntropy →
    ∃ q : Pair, Pair.run (List.replicate (76 + p.a.params.nEntropy) (.link .clean)) p = .next q ∧
      q.a.st = .complete ∧ q.b.st = .complete ∧
      (∀ i, i < 44 → q.a.rcv.read i = p.b.out.read i ∧ q.b.rcv.read i = p.a.out.read i) ∧
      (p.a.params.wireTrailer = true → ∀ i, 44 ≤ i → i < 62 → q.a.rcv.read i = p.b.out.read i) ∧
      (p.b.params.wireTrailer = true → ∀ i, 44 ≤ i → i < 62 → q.b.rcv.read i = p.a.out.read i)) ∧
  (∀ (p : Pair) (xs ys : List Input) (n : Nat), p.a.st = .idle → p.b.st = .idle → p.a.held = [] → p.b.held = [] →
    p.a.inputs = .host [0x74] :: xs → p.b.inputs = .host [0x74] :: ys →
    ∃ a b : State,
      exec .cmdTrade { p.a with inputs := xs } = .next a ∧ exec .cmdTrade { p.b with inputs := ys } = .next b ∧
      Pair.run (.ownA :: (List.replicate n (.link .clean) ++ [.ownB])) p = .next ⟨a, b⟩ ∧
      Pair.run (.ownB :: (List.replicate n (.link .clean) ++ [.ownA])) p = .next ⟨a, b⟩ ∧
      (∃ t, exec .timeoutAny a = .next t ∧ t.st = .failed ∧ t.err = .linkTimeout ∧
        Pair.run [.ownA, .link ⟨none, none, false⟩] p = .next ⟨t, p.b⟩) ∧
      (∃ t, exec .timeoutAny b = .next t ∧ t.st = .failed ∧ t.err = .linkTimeout ∧
        Pair.run [.ownB, .link ⟨none, none, false⟩] p = .next ⟨p.a, t⟩))

/-- R194: over a loopback that corrupts every mode byte A sends, with equal retry budgets and distinct
mode and master codes, B fails with `HANDSHAKE_MISMATCH`, A one exchange later with `LINK_TIMEOUT`; if it
corrupts both sides' every byte, both fail with `HANDSHAKE_MISMATCH` in one joint step. Neither `RCV`
holds a received byte. R271: a side reset in mid-attempt is in `IDLE` and reports nothing, and the attempt
of its busy peer ends in `LINK_TIMEOUT`; that it does so in the step of the reset, before anything else, is
the model's choice (log entry 24). A side then started again finds a failed peer and times out (R166(b)). -/
def Obligations.CorruptedHandshakeFailsBothSides : Prop :=
  (∀ (p : Pair) (es : List LinkEvent), p.a.Inv → p.b.Inv → p.a.st = .hsMode → p.b.st = .hsMode →
    p.a.retry = 0 → p.b.retry = 0 → p.a.params.retryBudget = p.b.params.retryBudget →
    p.a.params.modeCode = p.b.params.modeCode → p.a.params.masterCode ≠ p.a.params.modeCode →
    (∀ e ∈ es, ∃ x, e.toB = some x ∧ x ≠ p.b.params.modeCode) →
    ((∀ e ∈ es, e.toA = none) → es.length = p.a.params.retryBudget + 2 →
      ∃ q : Pair, Pair.run (es.map .link) p = .next q ∧ q.a.st = .failed ∧ q.a.err = .linkTimeout ∧
        q.b.st = .failed ∧ q.b.err = .handshakeMismatch ∧
        ∀ a, q.a.rcv.read a = 0x00 ∧ q.b.rcv.read a = 0x00) ∧
    ((∀ e ∈ es, ∃ x, e.toA = some x ∧ x ≠ p.a.params.modeCode) → es.length = p.a.params.retryBudget + 1 →
      ∃ q : Pair, Pair.run (es.map .link) p = .next q ∧ q.a.st = .failed ∧ q.a.err = .handshakeMismatch ∧
        q.b.st = .failed ∧ q.b.err = .handshakeMismatch ∧
        ∀ a, q.a.rcv.read a = 0x00 ∧ q.b.rcv.read a = 0x00)) ∧
  (∀ (p : Pair) (xs : List Input) (e : LinkEvent), p.a.st.busy = true → p.b.st.busy = true →
    (p.a.inputs = .reset :: xs → ∃ u t : State,
      step p.a = .next u ∧ u.st = .idle ∧ u.reports = p.a.reports ∧ u.wire = p.a.wire ∧
      exec .timeoutAny p.b = .next t ∧ t.st = .failed ∧ t.err = .linkTimeout ∧
      Pair.run [.ownA] p = .next ⟨u, t⟩ ∧ Pair.run [.ownA, .link e] p = .next ⟨u, t⟩ ∧
      ∀ ys, xs = .host [0x74] :: ys → p.a.held = [] → ∃ v w : State,
        exec .cmdTrade { u with inputs := ys } = .next v ∧ Pair.run [.ownA, .ownA] p = .next ⟨v, t⟩ ∧
        exec .timeoutAny v = .next w ∧ Pair.run [.ownA, .ownA, .link e] p = .next ⟨w, t⟩) ∧
    (p.b.inputs = .reset :: xs → ∃ u t : State,
      step p.b = .next u ∧ u.st = .idle ∧ u.reports = p.b.reports ∧ u.wire = p.b.wire ∧
      exec .timeoutAny p.a = .next t ∧ t.st = .failed ∧ t.err = .linkTimeout ∧
      Pair.run [.ownB] p = .next ⟨t, u⟩ ∧ Pair.run [.ownB, .link e] p = .next ⟨t, u⟩ ∧
      ∀ ys, xs = .host [0x74] :: ys → p.b.held = [] → ∃ v w : State,
        exec .cmdTrade { u with inputs := ys } = .next v ∧ Pair.run [.ownB, .ownB] p = .next ⟨t, v⟩ ∧
        exec .timeoutAny v = .next w ∧ Pair.run [.ownB, .ownB, .link e] p = .next ⟨t, w⟩))
end

