-- ==== Sys2Proof/Laws/Codec.lean ====
section
/-! SUPPORT. The laws of operand assembly: what `memRead` and `memWrite` read and write, what a valid
layout is good for, and what the record's generic field view says. -/

namespace Sys2Proof

/-! ### Reading and writing bytes -/

theorem memRead_lt (b : List Byte) (o n : Nat) : memRead b o n < 256 ^ n := by
  induction n generalizing o with
  | zero => simp [memRead]
  | succ n ih =>
    have h1 := ih (o + 1)
    have h2 := (b.getD o 0).isLt
    simp only [memRead, Nat.pow_succ]
    omega

theorem memRead_congr {b c : List Byte} {o n : Nat} (h : ∀ k, k < n → b.getD (o + k) 0 = c.getD (o + k) 0) :
    memRead b o n = memRead c o n := by
  induction n generalizing o with
  | zero => rfl
  | succ n ih =>
    simp only [memRead]
    rw [show b.getD o 0 = c.getD o 0 from h 0 (by omega), ih fun k hk => ?_]
    rw [show o + 1 + k = o + (k + 1) by omega]
    exact h (k + 1) (by omega)

/-- Assembling the bytes of a value gives the value. -/
theorem memRead_of_bytes {b : List Byte} {o n v : Nat}
    (h : ∀ k, k < n → b.getD (o + k) 0 = BitVec.ofNat 8 (v / 256 ^ k)) : memRead b o n = v % 256 ^ n := by
  induction n generalizing o v with
  | zero => simp [memRead, Nat.mod_one]
  | succ n ih =>
    have h0 := h 0 (by omega)
    have ih' := ih (o := o + 1) (v := v / 256) fun k hk => by
      rw [show o + 1 + k = o + (k + 1) by omega, h (k + 1) (by omega), Nat.pow_succ, Nat.mul_comm,
        Nat.div_div_eq_div_mul]
    simp only [Nat.add_zero, Nat.pow_zero, Nat.div_one] at h0
    rw [memRead, h0, ih', BitVec.toNat_ofNat, Nat.pow_succ' (n := n), Nat.mod_mul]

/-- Slicing an assembled value gives the bytes back. -/
theorem byte_of_memRead (b : List Byte) (o n k : Nat) (hk : k < n) :
    BitVec.ofNat 8 (memRead b o n / 256 ^ k) = b.getD (o + k) 0 := by
  induction n generalizing o k with
  | zero => omega
  | succ n ih =>
    simp only [memRead]
    cases k with
    | zero =>
      apply BitVec.eq_of_toNat_eq
      have := (b.getD o 0).isLt
      simp only [BitVec.toNat_ofNat, Nat.pow_zero, Nat.div_one, Nat.add_zero]
      omega
    | succ k =>
      rw [show o + (k + 1) = o + 1 + k by omega, ← ih (o + 1) k (by omega), Nat.pow_succ, Nat.mul_comm (256 ^ k) 256,
        ← Nat.div_div_eq_div_mul]
      have := (b.getD o 0).isLt
      congr 2
      omega

@[simp] theorem length_memWrite (b : List Byte) (o n v : Nat) : (memWrite b o n v).length = b.length := by
  induction n generalizing b o v with
  | zero => rfl
  | succ n ih => simp [memWrite, ih]

/-- A write leaves every byte outside its range alone. -/
theorem getD_memWrite_out (b : List Byte) (o n v a : Nat) (h : a < o ∨ o + n ≤ a) :
    (memWrite b o n v).getD a 0 = b.getD a 0 := by
  induction n generalizing b o v with
  | zero => rfl
  | succ n ih =>
    rw [memWrite, ih _ _ _ (by omega)]
    simp only [List.getD_eq_getElem?_getD]
    rw [List.getElem?_set_ne (by omega)]

/-- A write puts byte `k` of the value at offset `o+k`. -/
theorem getD_memWrite_in (b : List Byte) (o n v k : Nat) (hk : k < n) (hl : o + n ≤ b.length) :
    (memWrite b o n v).getD (o + k) 0 = BitVec.ofNat 8 (v / 256 ^ k) := by
  induction n generalizing b o v k with
  | zero => omega
  | succ n ih =>
    rw [memWrite]
    cases k with
    | zero =>
      rw [getD_memWrite_out _ _ _ _ _ (by omega)]
      simp [List.getD_eq_getElem?_getD, List.getElem?_set_self (show o < b.length by omega)]
    | succ k =>
      rw [show o + (k + 1) = o + 1 + k by omega, ih _ _ _ _ (by omega) (by simp; omega), Nat.pow_succ,
        Nat.mul_comm (256 ^ k) 256, Nat.div_div_eq_div_mul]

/-- Byte arrays of one length that hold the same bytes are equal. -/
theorem bytes_ext {b c : List Byte} (hl : b.length = c.length) (h : ∀ a, a < b.length → b.getD a 0 = c.getD a 0) :
    b = c := by
  apply List.ext_getElem hl
  intro i h1 h2
  simpa [List.getD_eq_getElem?_getD, h1, h2] using h i h1

@[simp] theorem length_slice (s : List Byte) (a n : Nat) : (slice s a n).length = min n (s.length - a) := by
  simp [slice]

theorem getD_slice (s : List Byte) (a n k : Nat) (hk : k < n) : (slice s a n).getD k 0 = s.getD (a + k) 0 := by
  simp [slice, List.getD_eq_getElem?_getD, hk]

/-! ### Layouts -/

theorem CoreField.mem_all (f : CoreField) : f ∈ CoreField.all := by cases f <;> decide

theorem CoreField.nodup_all : CoreField.all.Nodup := by decide

theorem CoreField.bytes_pos (f : CoreField) : 0 < f.bytes := by cases f <;> decide

theorem CoreField.two_pow_width (f : CoreField) : 2 ^ f.width = 256 ^ f.bytes := by
  rw [CoreField.width, Nat.pow_mul]

@[simp] theorem Layout.length_spots (l : Layout) : l.spots.length = coreLen := by
  simp [Layout.spots, CoreField.all, CoreField.bytes, coreLen]

theorem Layout.mem_spots (l : Layout) (f : CoreField) {k : Nat} (hk : k < f.bytes) : l.off f + k ∈ l.spots :=
  List.mem_flatMap.mpr ⟨f, f.mem_all, List.mem_map.mpr ⟨k, List.mem_range.mpr hk, rfl⟩⟩

theorem Layout.spots_perm {l : Layout} (h : l.valid = true) : (List.range coreLen).Perm l.spots := by
  have hc : ∀ k, k < coreLen → l.spots.count k = 1 := by
    simpa [Layout.valid] using h
  refine List.Subperm.perm_of_length_le ?_ (by simp)
  refine List.nodup_range.subperm fun k hk => ?_
  exact List.count_pos_iff.mp (by rw [hc k (List.mem_range.mp hk)]; exact Nat.one_pos)

/-- In a valid layout every byte of a field stands inside the core block. -/
theorem Layout.off_lt {l : Layout} (h : l.valid = true) (f : CoreField) {k : Nat} (hk : k < f.bytes) :
    l.off f + k < coreLen :=
  List.mem_range.mp ((Layout.spots_perm h).mem_iff.mpr (l.mem_spots f hk))

/-- In a valid layout a field ends inside the core block. -/
theorem Layout.end_le {l : Layout} (h : l.valid = true) (f : CoreField) : l.off f + f.bytes ≤ coreLen := by
  have := Layout.off_lt h f (k := f.bytes - 1) (by have := f.bytes_pos; omega)
  have := f.bytes_pos
  omega

/-- In a valid layout no offset belongs to two fields. -/
theorem Layout.off_ne {l : Layout} (h : l.valid = true) {f g : CoreField} (hfg : f ≠ g) {j k : Nat}
    (hj : j < f.bytes) (hk : k < g.bytes) : l.off f + j ≠ l.off g + k := by
  have hn : l.spots.Nodup := (Layout.spots_perm h).nodup_iff.mp List.nodup_range
  have hd := (List.nodup_flatMap.mp hn).2
  let R := fun f g : CoreField =>
    f ≠ g → List.Disjoint ((List.range f.bytes).map (l.off f + ·)) ((List.range g.bytes).map (l.off g + ·))
  have h1 : CoreField.all.Pairwise R := List.Pairwise.imp (S := R) (fun {_ _} h (_ : _ ≠ _) => h) hd
  have h2 : CoreField.all.Pairwise (flip R) :=
    List.Pairwise.imp (S := flip R) (fun {_ _} h (_ : _ ≠ _) => List.Disjoint.symm h) hd
  have := List.Pairwise.forall_of_forall_of_flip (fun x _ hx => absurd rfl hx) h1 h2 f.mem_all g.mem_all hfg
  intro he
  exact this (List.mem_map.mpr ⟨j, List.mem_range.mpr hj, rfl⟩) (List.mem_map.mpr ⟨k, List.mem_range.mpr hk, he.symm⟩)

/-- In a valid layout two fields' ranges lie apart. -/
theorem Layout.apart {l : Layout} (h : l.valid = true) {f g : CoreField} (hfg : f ≠ g) :
    l.off f + f.bytes ≤ l.off g ∨ l.off g + g.bytes ≤ l.off f := by
  by_contra hc
  rw [not_or, Nat.not_le, Nat.not_le] at hc
  rcases Nat.le_total (l.off f) (l.off g) with hle | hle
  · exact Layout.off_ne h hfg (j := l.off g - l.off f) (k := 0) (by omega) g.bytes_pos (by omega)
  · exact Layout.off_ne h hfg (j := 0) (k := l.off f - l.off g) f.bytes_pos (by omega) (by omega)

/-- In a valid layout every offset of the core block belongs to a field. -/
theorem Layout.cover {l : Layout} (h : l.valid = true) {a : Nat} (ha : a < coreLen) :
    ∃ f k, k < CoreField.bytes f ∧ l.off f + k = a := by
  have := (Layout.spots_perm h).mem_iff.mp (List.mem_range.mpr ha)
  obtain ⟨f, -, hk⟩ := List.mem_flatMap.mp this
  obtain ⟨k, hk, he⟩ := List.mem_map.mp hk
  exact ⟨f, k, List.mem_range.mp hk, he⟩

/-! ### The generic field view of a record -/

theorem CoreRecord.val_lt (r : CoreRecord) (f : CoreField) : r.val f < 2 ^ f.width := by
  cases f <;> exact BitVec.isLt _

theorem CoreRecord.val_ofVal (v : CoreField → Nat) (f : CoreField) :
    (CoreRecord.ofVal v).val f = v f % 2 ^ f.width := by
  cases f <;> rfl

theorem CoreRecord.ofVal_val (r : CoreRecord) : CoreRecord.ofVal r.val = r := by
  cases r
  simp [CoreRecord.ofVal, CoreRecord.val]

/-- Records whose fields have equal values are equal. -/
theorem CoreRecord.ext_val {r q : CoreRecord} (h : ∀ f, r.val f = q.val f) : r = q := by
  rw [← r.ofVal_val, ← q.ofVal_val, funext h]

theorem fieldGet_lt (l : Layout) (b : List Byte) (f : CoreField) : fieldGet l b f < 2 ^ f.width := by
  rw [f.two_pow_width]
  exact memRead_lt _ _ _

@[simp] theorem length_encCore (l : Layout) (r : CoreRecord) : (encCore l r).length = coreLen := by
  suffices ∀ (fs : List CoreField) (b : List Byte),
      (fs.foldl (fun b f => fieldPut l b f (r.val f)) b).length = b.length by
    rw [encCore, this, List.length_replicate]
  intro fs
  induction fs with
  | nil => intro b; rfl
  | cons f fs ih => intro b; rw [List.foldl_cons, ih, fieldPut, length_memWrite]

/-! ### Names and slots -/

@[simp] theorem length_padString (c : List Byte) (l : Nat) : (padString c l).length = l := by
  simp [padString]

theorem PartyRecord.wf_iff {r : PartyRecord} :
    r.wf = true ↔ r.nickname.length = nickLen ∧ r.otName.length = otNameLen := by
  simp [PartyRecord.wf]

@[simp] theorem wf_buildL1 (tpl : SpeciesTemplate) (name : List Byte) (id : Half) : (buildL1 tpl name id).wf = true :=
  PartyRecord.wf_iff.mpr ⟨length_padString _ _, length_padString _ _⟩

theorem length_encTrailer {r : PartyRecord} (h : r.wf = true) : (encTrailer r).length = trailerLen := by
  rw [encTrailer, List.length_append, (PartyRecord.wf_iff.mp h).1, (PartyRecord.wf_iff.mp h).2]
  rfl

theorem length_encSlot (l : Layout) {r : PartyRecord} (h : r.wf = true) : (encSlot l r).length = slotLen := by
  rw [encSlot, List.length_append, length_encCore, length_encTrailer h]
  rfl

end Sys2Proof
end

