-- ==== Sys2Proof/Laws/Memory.lean ====
section
/-! SUPPORT. The laws of the slots: a read after a write, the canonical form is kept by every operation,
and canonical slots that read alike are equal. -/

namespace Sys2Proof.Machine

@[simp] theorem Memory.read_nil (a : Nat) : Memory.read [] a = 0x00 := rfl

@[simp] theorem Memory.read_zero (a : Nat) : Memory.read Memory.zero a = 0x00 := rfl

theorem Memory.read_cons (k a : Nat) (v : Byte) (m : Memory) :
    Memory.read ((k, v) :: m) a = if k = a then v else Memory.read m a := rfl

@[simp] theorem Memory.wfFrom_nil (lo : Nat) : Memory.wfFrom lo [] = true := rfl

@[simp] theorem Memory.wf_nil : Memory.wf [] = true := rfl

@[simp] theorem Memory.wf_zero : Memory.wf Memory.zero = true := rfl

theorem Memory.wfFrom_cons {lo k : Nat} {v : Byte} {m : Memory} :
    Memory.wfFrom lo ((k, v) :: m) = true ↔
      lo ≤ k ∧ k < slotLen ∧ v ≠ Memory.unlisted ∧ Memory.wfFrom (k + 1) m = true := by
  simp [Memory.wfFrom, and_assoc]

theorem Memory.wfFrom_mono {lo lo' : Nat} {m : Memory} (h : lo ≤ lo') (hm : Memory.wfFrom lo' m = true) :
    Memory.wfFrom lo m = true := by
  cases m with
  | nil => rfl
  | cons c m =>
    obtain ⟨k, v⟩ := c
    rw [Memory.wfFrom_cons] at hm ⊢
    exact ⟨h.trans hm.1, hm.2⟩

/-- A canonical slot reads as unlisted below its first cell. -/
theorem Memory.read_below {lo a : Nat} {m : Memory} (hm : Memory.wfFrom lo m = true) (ha : a < lo) :
    m.read a = Memory.unlisted := by
  induction m generalizing lo with
  | nil => rfl
  | cons c m ih =>
    obtain ⟨k, v⟩ := c
    rw [Memory.wfFrom_cons] at hm
    rw [Memory.read_cons, if_neg (by omega)]
    exact ih hm.2.2.2 (by omega)

/-- A canonical slot reads as unlisted outside its 62 offsets. -/
theorem Memory.read_outside {lo a : Nat} {m : Memory} (hm : Memory.wfFrom lo m = true) (ha : slotLen ≤ a) :
    m.read a = Memory.unlisted := by
  induction m generalizing lo with
  | nil => rfl
  | cons c m ih =>
    obtain ⟨k, v⟩ := c
    rw [Memory.wfFrom_cons] at hm
    rw [Memory.read_cons, if_neg (by omega)]
    exact ih hm.2.2.2

theorem Memory.read_insert (a b : Nat) (v : Byte) (m : Memory) (hm : Memory.wfFrom 0 m = true ∨ a = b) :
    (Memory.insert a v m).read b = if a = b then v else m.read b := by
  induction m with
  | nil => rfl
  | cons c m ih =>
    obtain ⟨k, w⟩ := c
    have ih' := ih (hm.imp (fun h => Memory.wfFrom_mono (Nat.zero_le _) (Memory.wfFrom_cons.mp h).2.2.2) id)
    simp only [Memory.insert]
    split
    · simp [Memory.read_cons]
    · split
      · subst_vars
        simp only [Memory.read_cons]
        split <;> rfl
      · simp only [Memory.read_cons, ih']
        split
        · rw [if_neg (by omega)]
        · rfl

theorem Memory.read_erase (a b : Nat) (m : Memory) :
    (Memory.erase a m).read b = if a = b then Memory.unlisted else m.read b := by
  induction m with
  | nil => simp [Memory.erase, Memory.read, Memory.unlisted]
  | cons c m ih =>
    obtain ⟨k, w⟩ := c
    simp only [Memory.erase] at ih ⊢
    by_cases hk : k = a
    · subst hk
      simp only [List.filter_cons, bne_self_eq_false, Bool.false_eq_true, if_false, ih, Memory.read_cons]
      split <;> rfl
    · simp only [List.filter_cons, bne_iff_ne, ne_eq, hk, not_false_eq_true, if_true, Memory.read_cons, ih]
      by_cases hb : k = b
      · rw [if_pos hb, if_neg (by omega), if_pos hb]
      · rw [if_neg hb, if_neg hb]

theorem Memory.wfFrom_insert {lo a : Nat} {v : Byte} {m : Memory} (hm : Memory.wfFrom lo m = true) (hlo : lo ≤ a)
    (ha : a < slotLen) (hv : v ≠ Memory.unlisted) : Memory.wfFrom lo (Memory.insert a v m) = true := by
  induction m generalizing lo with
  | nil => simp [Memory.insert, Memory.wfFrom_cons, *]
  | cons c m ih =>
    obtain ⟨k, w⟩ := c
    rw [Memory.wfFrom_cons] at hm
    obtain ⟨h1, h2, h3, h4⟩ := hm
    simp only [Memory.insert]
    split
    · exact Memory.wfFrom_cons.mpr ⟨hlo, ha, hv, Memory.wfFrom_cons.mpr ⟨by omega, h2, h3, h4⟩⟩
    · split
      · subst_vars
        exact Memory.wfFrom_cons.mpr ⟨h1, h2, hv, h4⟩
      · exact Memory.wfFrom_cons.mpr ⟨h1, h2, h3, ih h4 (by omega)⟩

theorem Memory.wfFrom_erase {lo a : Nat} {m : Memory} (hm : Memory.wfFrom lo m = true) :
    Memory.wfFrom lo (Memory.erase a m) = true := by
  induction m generalizing lo with
  | nil => rfl
  | cons c m ih =>
    obtain ⟨k, w⟩ := c
    obtain ⟨h1, h2, h3, h4⟩ := Memory.wfFrom_cons.mp hm
    have ih' := ih h4
    simp only [Memory.erase] at ih' ⊢
    rw [List.filter_cons]
    split
    · exact Memory.wfFrom_cons.mpr ⟨h1, h2, h3, ih'⟩
    · exact Memory.wfFrom_mono (by omega) ih'

/-- Every write inside the slot keeps the canonical form. -/
theorem Memory.wf_write {m : Memory} (hm : m.wf = true) {a : Nat} (ha : a < slotLen) (v : Byte) :
    (m.write a v).wf = true := by
  unfold Memory.write
  split
  · exact Memory.wfFrom_erase hm
  · exact Memory.wfFrom_insert hm (Nat.zero_le a) ha ‹_›

/-- A read after a write. -/
theorem Memory.read_write {m : Memory} (hm : m.wf = true) (a b : Nat) (v : Byte) :
    (m.write a v).read b = if a = b then v else m.read b := by
  unfold Memory.write
  split
  · rw [Memory.read_erase]; simp_all
  · exact Memory.read_insert a b v m (.inl hm)

/-- A read of the byte written, in any slot. -/
theorem Memory.read_write_same (m : Memory) (a : Nat) (v : Byte) : (m.write a v).read a = v := by
  unfold Memory.write
  split
  · rw [Memory.read_erase, if_pos rfl]; simp_all
  · rw [Memory.read_insert a a v m (.inr rfl), if_pos rfl]

theorem Memory.wfFrom_cells (b : List Byte) (lo : Nat) (h : lo + b.length ≤ slotLen) :
    Memory.wfFrom lo (Memory.cells lo b) = true := by
  induction b generalizing lo with
  | nil => rfl
  | cons x xs ih =>
    simp only [List.length_cons] at h
    have := ih (lo + 1) (by omega)
    simp only [Memory.cells]
    split
    · exact Memory.wfFrom_mono (by omega) this
    · exact Memory.wfFrom_cons.mpr ⟨le_rfl, by omega, ‹_›, this⟩

/-- A slot written whole is canonical. -/
theorem Memory.wf_ofBytes {b : List Byte} (h : b.length ≤ slotLen) : (Memory.ofBytes b).wf = true :=
  Memory.wfFrom_cells b 0 (by omega)

theorem Memory.read_cells_below (b : List Byte) (lo a : Nat) (h : a < lo) :
    (Memory.cells lo b).read a = Memory.unlisted := by
  induction b generalizing lo with
  | nil => rfl
  | cons x xs ih =>
    simp only [Memory.cells]
    split
    · exact ih (lo + 1) (by omega)
    · rw [Memory.read_cons, if_neg (by omega), ih (lo + 1) (by omega)]

theorem Memory.read_cells (b : List Byte) (lo k : Nat) :
    (Memory.cells lo b).read (lo + k) = b.getD k 0x00 := by
  induction b generalizing lo k with
  | nil => simp [Memory.cells]
  | cons x xs ih =>
    simp only [Memory.cells]
    cases k with
    | zero =>
      split
      · rw [Memory.read_cells_below _ _ _ (by omega)]; simp_all [Memory.unlisted]
      · simp [Memory.read_cons]
    | succ k =>
      have := ih (lo + 1) k
      rw [show lo + 1 + k = lo + (k + 1) by omega] at this
      split
      · simpa using this
      · rw [Memory.read_cons, if_neg (by omega)]; simpa using this

/-- A slot written whole reads as the bytes written. -/
@[simp] theorem Memory.read_ofBytes (b : List Byte) (a : Nat) : (Memory.ofBytes b).read a = b.getD a 0x00 := by
  simpa [Memory.ofBytes] using Memory.read_cells b 0 a

@[simp] theorem Memory.length_bytes (m : Memory) (a n : Nat) : (m.bytes a n).length = n := by
  simp [Memory.bytes]

@[simp] theorem Memory.length_slot (m : Memory) : m.slot.length = slotLen := by simp [Memory.slot]

theorem Memory.getD_bytes (m : Memory) (a n k : Nat) (h : k < n) : (m.bytes a n).getD k 0x00 = m.read (a + k) := by
  simp [Memory.bytes, List.getD_eq_getElem?_getD, h]

/-- A byte of the slot read whole. -/
theorem Memory.getD_slot (m : Memory) {k : Nat} (h : k < slotLen) : m.slot.getD k 0x00 = m.read k := by
  simpa [Memory.slot] using Memory.getD_bytes m 0 slotLen k h

/-- Canonical slots that read alike are equal: equal memories are equal data. -/
theorem Memory.ext_wf {lo : Nat} {m n : Memory} (hm : Memory.wfFrom lo m = true) (hn : Memory.wfFrom lo n = true)
    (h : ∀ a, m.read a = n.read a) : m = n := by
  induction m generalizing lo n with
  | nil =>
    cases n with
    | nil => rfl
    | cons c n =>
      obtain ⟨k, v⟩ := c
      have hv := (Memory.wfFrom_cons.mp hn).2.2.1
      have := h k
      simp [Memory.read_cons, Memory.unlisted] at this hv
      exact absurd this.symm hv
  | cons c m ih =>
    obtain ⟨k, v⟩ := c
    obtain ⟨h1, h2, h3, h4⟩ := Memory.wfFrom_cons.mp hm
    cases n with
    | nil =>
      have := h k
      simp [Memory.read_cons, Memory.unlisted] at this h3
      exact absurd this h3
    | cons c' n =>
      obtain ⟨k', v'⟩ := c'
      obtain ⟨g1, g2, g3, g4⟩ := Memory.wfFrom_cons.mp hn
      have hkk : k = k' := by
        rcases Nat.lt_trichotomy k k' with hlt | heq | hgt
        · have := h k
          rw [Memory.read_cons, if_pos rfl, Memory.read_cons, if_neg (by omega),
            Memory.read_below g4 (by omega)] at this
          exact absurd this h3
        · exact heq
        · have := h k'
          rw [Memory.read_cons, if_neg (by omega), Memory.read_below h4 (by omega), Memory.read_cons,
            if_pos rfl] at this
          exact absurd this.symm g3
      subst hkk
      have hv : v = v' := by simpa [Memory.read_cons] using h k
      subst hv
      congr 1
      refine ih h4 g4 fun a => ?_
      by_cases ha : k = a
      · subst ha
        rw [Memory.read_below h4 (by omega), Memory.read_below g4 (by omega)]
      · simpa [Memory.read_cons, ha] using h a

end Sys2Proof.Machine
end

