-- ==== Sys2Proof/Laws/State.lean ====
section
/-! SUPPORT. One lemma per field per shared update of the state, so that no later proof unfolds a record
update; and what `offerWhileBusy` and `keepMetadata` leave alone. -/

namespace Sys2Proof.Machine

/-! ### `State.goto` -/

@[simp] theorem State.goto_out (p : Phase) (s : State) : (s.goto p).out = s.out := rfl
@[simp] theorem State.goto_rcv (p : Phase) (s : State) : (s.goto p).rcv = s.rcv := rfl
@[simp] theorem State.goto_st (p : Phase) (s : State) : (s.goto p).st = p := rfl
@[simp] theorem State.goto_idx (p : Phase) (s : State) : (s.goto p).idx = s.idx := rfl
@[simp] theorem State.goto_retry (p : Phase) (s : State) : (s.goto p).retry = s.retry := rfl
@[simp] theorem State.goto_err (p : Phase) (s : State) : (s.goto p).err = s.err := rfl
@[simp] theorem State.goto_params (p : Phase) (s : State) : (s.goto p).params = s.params := rfl
@[simp] theorem State.goto_config (p : Phase) (s : State) : (s.goto p).config = s.config := rfl
@[simp] theorem State.goto_link (p : Phase) (s : State) : (s.goto p).link = s.link := rfl
@[simp] theorem State.goto_inputs (p : Phase) (s : State) : (s.goto p).inputs = s.inputs := rfl
@[simp] theorem State.goto_held (p : Phase) (s : State) : (s.goto p).held = s.held := rfl
@[simp] theorem State.goto_draws (p : Phase) (s : State) : (s.goto p).draws = s.draws := rfl
@[simp] theorem State.goto_oracle (p : Phase) (s : State) : (s.goto p).oracle = s.oracle := rfl
@[simp] theorem State.goto_wire (p : Phase) (s : State) : (s.goto p).wire = s.wire := rfl
@[simp] theorem State.goto_reports (p : Phase) (s : State) : (s.goto p).reports = s.reports := rfl
@[simp] theorem State.goto_datapath (p : Phase) (s : State) : (s.goto p).datapath = s.datapath := rfl

/-! ### `State.enter` -/

@[simp] theorem State.enter_out (p : Phase) (s : State) : (s.enter p).out = s.out := rfl
@[simp] theorem State.enter_rcv (p : Phase) (s : State) : (s.enter p).rcv = s.rcv := rfl
@[simp] theorem State.enter_st (p : Phase) (s : State) : (s.enter p).st = p := rfl
@[simp] theorem State.enter_idx (p : Phase) (s : State) : (s.enter p).idx = 0 := rfl
@[simp] theorem State.enter_retry (p : Phase) (s : State) : (s.enter p).retry = s.retry := rfl
@[simp] theorem State.enter_err (p : Phase) (s : State) : (s.enter p).err = s.err := rfl
@[simp] theorem State.enter_params (p : Phase) (s : State) : (s.enter p).params = s.params := rfl
@[simp] theorem State.enter_config (p : Phase) (s : State) : (s.enter p).config = s.config := rfl
@[simp] theorem State.enter_link (p : Phase) (s : State) : (s.enter p).link = s.link := rfl
@[simp] theorem State.enter_inputs (p : Phase) (s : State) : (s.enter p).inputs = s.inputs := rfl
@[simp] theorem State.enter_held (p : Phase) (s : State) : (s.enter p).held = s.held := rfl
@[simp] theorem State.enter_draws (p : Phase) (s : State) : (s.enter p).draws = s.draws := rfl
@[simp] theorem State.enter_oracle (p : Phase) (s : State) : (s.enter p).oracle = s.oracle := rfl
@[simp] theorem State.enter_wire (p : Phase) (s : State) : (s.enter p).wire = s.wire := rfl
@[simp] theorem State.enter_reports (p : Phase) (s : State) : (s.enter p).reports = s.reports := rfl
@[simp] theorem State.enter_datapath (p : Phase) (s : State) : (s.enter p).datapath = s.datapath := rfl

/-! ### `State.advance` -/

@[simp] theorem State.advance_out (s : State) : (s.advance).out = s.out := rfl
@[simp] theorem State.advance_rcv (s : State) : (s.advance).rcv = s.rcv := rfl
@[simp] theorem State.advance_st (s : State) : (s.advance).st = s.st := rfl
@[simp] theorem State.advance_idx (s : State) : (s.advance).idx = s.idx + 1 := rfl
@[simp] theorem State.advance_retry (s : State) : (s.advance).retry = s.retry := rfl
@[simp] theorem State.advance_err (s : State) : (s.advance).err = s.err := rfl
@[simp] theorem State.advance_params (s : State) : (s.advance).params = s.params := rfl
@[simp] theorem State.advance_config (s : State) : (s.advance).config = s.config := rfl
@[simp] theorem State.advance_link (s : State) : (s.advance).link = s.link := rfl
@[simp] theorem State.advance_inputs (s : State) : (s.advance).inputs = s.inputs := rfl
@[simp] theorem State.advance_held (s : State) : (s.advance).held = s.held := rfl
@[simp] theorem State.advance_draws (s : State) : (s.advance).draws = s.draws := rfl
@[simp] theorem State.advance_oracle (s : State) : (s.advance).oracle = s.oracle := rfl
@[simp] theorem State.advance_wire (s : State) : (s.advance).wire = s.wire := rfl
@[simp] theorem State.advance_reports (s : State) : (s.advance).reports = s.reports := rfl
@[simp] theorem State.advance_datapath (s : State) : (s.advance).datapath = s.datapath := rfl

/-! ### `State.setRetry` -/

@[simp] theorem State.setRetry_out (n : Nat) (s : State) : (s.setRetry n).out = s.out := rfl
@[simp] theorem State.setRetry_rcv (n : Nat) (s : State) : (s.setRetry n).rcv = s.rcv := rfl
@[simp] theorem State.setRetry_st (n : Nat) (s : State) : (s.setRetry n).st = s.st := rfl
@[simp] theorem State.setRetry_idx (n : Nat) (s : State) : (s.setRetry n).idx = s.idx := rfl
@[simp] theorem State.setRetry_retry (n : Nat) (s : State) : (s.setRetry n).retry = n := rfl
@[simp] theorem State.setRetry_err (n : Nat) (s : State) : (s.setRetry n).err = s.err := rfl
@[simp] theorem State.setRetry_params (n : Nat) (s : State) : (s.setRetry n).params = s.params := rfl
@[simp] theorem State.setRetry_config (n : Nat) (s : State) : (s.setRetry n).config = s.config := rfl
@[simp] theorem State.setRetry_link (n : Nat) (s : State) : (s.setRetry n).link = s.link := rfl
@[simp] theorem State.setRetry_inputs (n : Nat) (s : State) : (s.setRetry n).inputs = s.inputs := rfl
@[simp] theorem State.setRetry_held (n : Nat) (s : State) : (s.setRetry n).held = s.held := rfl
@[simp] theorem State.setRetry_draws (n : Nat) (s : State) : (s.setRetry n).draws = s.draws := rfl
@[simp] theorem State.setRetry_oracle (n : Nat) (s : State) : (s.setRetry n).oracle = s.oracle := rfl
@[simp] theorem State.setRetry_wire (n : Nat) (s : State) : (s.setRetry n).wire = s.wire := rfl
@[simp] theorem State.setRetry_reports (n : Nat) (s : State) : (s.setRetry n).reports = s.reports := rfl
@[simp] theorem State.setRetry_datapath (n : Nat) (s : State) : (s.setRetry n).datapath = s.datapath := rfl

/-! ### `State.store` -/

@[simp] theorem State.store_out (a : Nat) (v : Byte) (s : State) : (s.store a v).out = s.out := rfl
@[simp] theorem State.store_rcv (a : Nat) (v : Byte) (s : State) : (s.store a v).rcv = s.rcv.write a v := rfl
@[simp] theorem State.store_st (a : Nat) (v : Byte) (s : State) : (s.store a v).st = s.st := rfl
@[simp] theorem State.store_idx (a : Nat) (v : Byte) (s : State) : (s.store a v).idx = s.idx := rfl
@[simp] theorem State.store_retry (a : Nat) (v : Byte) (s : State) : (s.store a v).retry = s.retry := rfl
@[simp] theorem State.store_err (a : Nat) (v : Byte) (s : State) : (s.store a v).err = s.err := rfl
@[simp] theorem State.store_params (a : Nat) (v : Byte) (s : State) : (s.store a v).params = s.params := rfl
@[simp] theorem State.store_config (a : Nat) (v : Byte) (s : State) : (s.store a v).config = s.config := rfl
@[simp] theorem State.store_link (a : Nat) (v : Byte) (s : State) : (s.store a v).link = s.link := rfl
@[simp] theorem State.store_inputs (a : Nat) (v : Byte) (s : State) : (s.store a v).inputs = s.inputs := rfl
@[simp] theorem State.store_held (a : Nat) (v : Byte) (s : State) : (s.store a v).held = s.held := rfl
@[simp] theorem State.store_draws (a : Nat) (v : Byte) (s : State) : (s.store a v).draws = s.draws := rfl
@[simp] theorem State.store_oracle (a : Nat) (v : Byte) (s : State) : (s.store a v).oracle = s.oracle := rfl
@[simp] theorem State.store_wire (a : Nat) (v : Byte) (s : State) : (s.store a v).wire = s.wire := rfl
@[simp] theorem State.store_reports (a : Nat) (v : Byte) (s : State) : (s.store a v).reports = s.reports := rfl
@[simp] theorem State.store_datapath (a : Nat) (v : Byte) (s : State) : (s.store a v).datapath = s.datapath := rfl

/-! ### `State.putResult` -/

@[simp] theorem State.putResult_out (v : Value) (s : State) : (s.putResult v).out = s.out := rfl
@[simp] theorem State.putResult_rcv (v : Value) (s : State) : (s.putResult v).rcv = s.rcv := rfl
@[simp] theorem State.putResult_st (v : Value) (s : State) : (s.putResult v).st = s.st := rfl
@[simp] theorem State.putResult_idx (v : Value) (s : State) : (s.putResult v).idx = s.idx := rfl
@[simp] theorem State.putResult_retry (v : Value) (s : State) : (s.putResult v).retry = s.retry := rfl
@[simp] theorem State.putResult_err (v : Value) (s : State) : (s.putResult v).err = s.err := rfl
@[simp] theorem State.putResult_params (v : Value) (s : State) : (s.putResult v).params = s.params := rfl
@[simp] theorem State.putResult_config (v : Value) (s : State) : (s.putResult v).config = s.config := rfl
@[simp] theorem State.putResult_link (v : Value) (s : State) : (s.putResult v).link = s.link := rfl
@[simp] theorem State.putResult_inputs (v : Value) (s : State) : (s.putResult v).inputs = s.inputs := rfl
@[simp] theorem State.putResult_held (v : Value) (s : State) : (s.putResult v).held = s.held := rfl
@[simp] theorem State.putResult_draws (v : Value) (s : State) : (s.putResult v).draws = s.draws := rfl
@[simp] theorem State.putResult_oracle (v : Value) (s : State) : (s.putResult v).oracle = s.oracle := rfl
@[simp] theorem State.putResult_wire (v : Value) (s : State) : (s.putResult v).wire = s.wire := rfl
@[simp] theorem State.putResult_reports (v : Value) (s : State) : (s.putResult v).reports = s.reports := rfl
@[simp] theorem State.putResult_datapath (v : Value) (s : State) : (s.putResult v).datapath = some v := rfl

/-! ### `State.exchanged` -/

@[simp] theorem State.exchanged_out (tx : Byte) (ans : Answer) (s : State) : (s.exchanged tx ans).out = s.out := rfl
@[simp] theorem State.exchanged_rcv (tx : Byte) (ans : Answer) (s : State) : (s.exchanged tx ans).rcv = s.rcv := rfl
@[simp] theorem State.exchanged_st (tx : Byte) (ans : Answer) (s : State) : (s.exchanged tx ans).st = s.st := rfl
@[simp] theorem State.exchanged_idx (tx : Byte) (ans : Answer) (s : State) : (s.exchanged tx ans).idx = s.idx := rfl
@[simp] theorem State.exchanged_retry (tx : Byte) (ans : Answer) (s : State) : (s.exchanged tx ans).retry = s.retry := rfl
@[simp] theorem State.exchanged_err (tx : Byte) (ans : Answer) (s : State) : (s.exchanged tx ans).err = s.err := rfl
@[simp] theorem State.exchanged_params (tx : Byte) (ans : Answer) (s : State) : (s.exchanged tx ans).params = s.params := rfl
@[simp] theorem State.exchanged_config (tx : Byte) (ans : Answer) (s : State) : (s.exchanged tx ans).config = s.config := rfl
@[simp] theorem State.exchanged_link (tx : Byte) (ans : Answer) (s : State) : (s.exchanged tx ans).link = s.link := rfl
@[simp] theorem State.exchanged_inputs (tx : Byte) (ans : Answer) (s : State) : (s.exchanged tx ans).inputs = s.inputs := rfl
@[simp] theorem State.exchanged_held (tx : Byte) (ans : Answer) (s : State) : (s.exchanged tx ans).held = s.held := rfl
@[simp] theorem State.exchanged_draws (tx : Byte) (ans : Answer) (s : State) : (s.exchanged tx ans).draws = if s.st = .entropy then s.draws.tail else s.draws := rfl
@[simp] theorem State.exchanged_oracle (tx : Byte) (ans : Answer) (s : State) : (s.exchanged tx ans).oracle = s.oracle + 1 := rfl
@[simp] theorem State.exchanged_wire (tx : Byte) (ans : Answer) (s : State) : (s.exchanged tx ans).wire = s.wire ++ [⟨tx, ans⟩] := rfl
@[simp] theorem State.exchanged_reports (tx : Byte) (ans : Answer) (s : State) : (s.exchanged tx ans).reports = s.reports := rfl
@[simp] theorem State.exchanged_datapath (tx : Byte) (ans : Answer) (s : State) : (s.exchanged tx ans).datapath = s.datapath := rfl

/-! ### `State.emit` -/

@[simp] theorem State.emit_out (r : Report) (s : State) : (s.emit r).out = s.out := rfl
@[simp] theorem State.emit_rcv (r : Report) (s : State) : (s.emit r).rcv = s.rcv := rfl
@[simp] theorem State.emit_st (r : Report) (s : State) : (s.emit r).st = s.st := rfl
@[simp] theorem State.emit_idx (r : Report) (s : State) : (s.emit r).idx = s.idx := rfl
@[simp] theorem State.emit_retry (r : Report) (s : State) : (s.emit r).retry = s.retry := rfl
@[simp] theorem State.emit_err (r : Report) (s : State) : (s.emit r).err = s.err := rfl
@[simp] theorem State.emit_params (r : Report) (s : State) : (s.emit r).params = s.params := rfl
@[simp] theorem State.emit_config (r : Report) (s : State) : (s.emit r).config = s.config := rfl
@[simp] theorem State.emit_link (r : Report) (s : State) : (s.emit r).link = s.link := rfl
@[simp] theorem State.emit_inputs (r : Report) (s : State) : (s.emit r).inputs = s.inputs := rfl
@[simp] theorem State.emit_held (r : Report) (s : State) : (s.emit r).held = s.held := rfl
@[simp] theorem State.emit_draws (r : Report) (s : State) : (s.emit r).draws = s.draws := rfl
@[simp] theorem State.emit_oracle (r : Report) (s : State) : (s.emit r).oracle = s.oracle := rfl
@[simp] theorem State.emit_wire (r : Report) (s : State) : (s.emit r).wire = s.wire := rfl
@[simp] theorem State.emit_reports (r : Report) (s : State) : (s.emit r).reports = s.reports ++ [r] := rfl
@[simp] theorem State.emit_datapath (r : Report) (s : State) : (s.emit r).datapath = s.datapath := rfl

/-! ### `State.fail` -/

@[simp] theorem State.fail_out (c : FailCause) (s : State) : (s.fail c).out = s.out := rfl
@[simp] theorem State.fail_rcv (c : FailCause) (s : State) : (s.fail c).rcv = s.rcv := rfl
@[simp] theorem State.fail_st (c : FailCause) (s : State) : (s.fail c).st = .failed := rfl
@[simp] theorem State.fail_idx (c : FailCause) (s : State) : (s.fail c).idx = s.idx := rfl
@[simp] theorem State.fail_retry (c : FailCause) (s : State) : (s.fail c).retry = s.retry := rfl
@[simp] theorem State.fail_err (c : FailCause) (s : State) : (s.fail c).err = c := rfl
@[simp] theorem State.fail_params (c : FailCause) (s : State) : (s.fail c).params = s.params := rfl
@[simp] theorem State.fail_config (c : FailCause) (s : State) : (s.fail c).config = s.config := rfl
@[simp] theorem State.fail_link (c : FailCause) (s : State) : (s.fail c).link = s.link := rfl
@[simp] theorem State.fail_inputs (c : FailCause) (s : State) : (s.fail c).inputs = s.inputs := rfl
@[simp] theorem State.fail_held (c : FailCause) (s : State) : (s.fail c).held = s.held := rfl
@[simp] theorem State.fail_draws (c : FailCause) (s : State) : (s.fail c).draws = s.draws := rfl
@[simp] theorem State.fail_oracle (c : FailCause) (s : State) : (s.fail c).oracle = s.oracle := rfl
@[simp] theorem State.fail_wire (c : FailCause) (s : State) : (s.fail c).wire = s.wire := rfl
@[simp] theorem State.fail_reports (c : FailCause) (s : State) : (s.fail c).reports = s.reports ++ [.result .failed c s.rcv.slot] := rfl
@[simp] theorem State.fail_datapath (c : FailCause) (s : State) : (s.fail c).datapath = s.datapath := rfl

/-! ### `State.finish` -/

@[simp] theorem State.finish_out (s : State) : (s.finish).out = s.out := rfl
@[simp] theorem State.finish_rcv (s : State) : (s.finish).rcv = s.rcv := rfl
@[simp] theorem State.finish_st (s : State) : (s.finish).st = .complete := rfl
@[simp] theorem State.finish_idx (s : State) : (s.finish).idx = s.idx := rfl
@[simp] theorem State.finish_retry (s : State) : (s.finish).retry = s.retry := rfl
@[simp] theorem State.finish_err (s : State) : (s.finish).err = s.err := rfl
@[simp] theorem State.finish_params (s : State) : (s.finish).params = s.params := rfl
@[simp] theorem State.finish_config (s : State) : (s.finish).config = s.config := rfl
@[simp] theorem State.finish_link (s : State) : (s.finish).link = s.link := rfl
@[simp] theorem State.finish_inputs (s : State) : (s.finish).inputs = s.inputs := rfl
@[simp] theorem State.finish_held (s : State) : (s.finish).held = s.held := rfl
@[simp] theorem State.finish_draws (s : State) : (s.finish).draws = s.draws := rfl
@[simp] theorem State.finish_oracle (s : State) : (s.finish).oracle = s.oracle := rfl
@[simp] theorem State.finish_wire (s : State) : (s.finish).wire = s.wire := rfl
@[simp] theorem State.finish_reports (s : State) : (s.finish).reports = s.reports ++ [.result .complete .none s.rcv.slot] := rfl
@[simp] theorem State.finish_datapath (s : State) : (s.finish).datapath = s.datapath := rfl

/-! ### `State.startAttempt` -/

@[simp] theorem State.startAttempt_out (s : State) : (s.startAttempt).out = Memory.ofBytes (encSlot s.params.layout
      (buildL1 s.config.template s.config.trainerName s.config.trainerId)) := by simp only [State.startAttempt, Memory.zero]
@[simp] theorem State.startAttempt_rcv (s : State) : (s.startAttempt).rcv = [] := by simp only [State.startAttempt, Memory.zero]
@[simp] theorem State.startAttempt_st (s : State) : (s.startAttempt).st = .hsMode := by simp only [State.startAttempt, Memory.zero]
@[simp] theorem State.startAttempt_idx (s : State) : (s.startAttempt).idx = 0 := by simp only [State.startAttempt, Memory.zero]
@[simp] theorem State.startAttempt_retry (s : State) : (s.startAttempt).retry = 0 := by simp only [State.startAttempt, Memory.zero]
@[simp] theorem State.startAttempt_err (s : State) : (s.startAttempt).err = .none := by simp only [State.startAttempt, Memory.zero]
@[simp] theorem State.startAttempt_params (s : State) : (s.startAttempt).params = s.params := by simp only [State.startAttempt, Memory.zero]
@[simp] theorem State.startAttempt_config (s : State) : (s.startAttempt).config = s.config := by simp only [State.startAttempt, Memory.zero]
@[simp] theorem State.startAttempt_link (s : State) : (s.startAttempt).link = s.link := by simp only [State.startAttempt, Memory.zero]
@[simp] theorem State.startAttempt_inputs (s : State) : (s.startAttempt).inputs = s.inputs := by simp only [State.startAttempt, Memory.zero]
@[simp] theorem State.startAttempt_held (s : State) : (s.startAttempt).held = s.held := by simp only [State.startAttempt, Memory.zero]
@[simp] theorem State.startAttempt_draws (s : State) : (s.startAttempt).draws = s.draws := by simp only [State.startAttempt, Memory.zero]
@[simp] theorem State.startAttempt_oracle (s : State) : (s.startAttempt).oracle = s.oracle := by simp only [State.startAttempt, Memory.zero]
@[simp] theorem State.startAttempt_wire (s : State) : (s.startAttempt).wire = s.wire := by simp only [State.startAttempt, Memory.zero]
@[simp] theorem State.startAttempt_reports (s : State) : (s.startAttempt).reports = s.reports := by simp only [State.startAttempt, Memory.zero]
@[simp] theorem State.startAttempt_datapath (s : State) : (s.startAttempt).datapath = s.datapath := by simp only [State.startAttempt, Memory.zero]

/-! ### `State.resetBlock` -/

@[simp] theorem State.resetBlock_out (s : State) : (s.resetBlock).out = [] := rfl
@[simp] theorem State.resetBlock_rcv (s : State) : (s.resetBlock).rcv = [] := rfl
@[simp] theorem State.resetBlock_st (s : State) : (s.resetBlock).st = .idle := rfl
@[simp] theorem State.resetBlock_idx (s : State) : (s.resetBlock).idx = 0 := rfl
@[simp] theorem State.resetBlock_retry (s : State) : (s.resetBlock).retry = 0 := rfl
@[simp] theorem State.resetBlock_err (s : State) : (s.resetBlock).err = .none := rfl
@[simp] theorem State.resetBlock_params (s : State) : (s.resetBlock).params = s.params := rfl
@[simp] theorem State.resetBlock_config (s : State) : (s.resetBlock).config = s.config := rfl
@[simp] theorem State.resetBlock_link (s : State) : (s.resetBlock).link = s.link := rfl
@[simp] theorem State.resetBlock_inputs (s : State) : (s.resetBlock).inputs = s.inputs := rfl
@[simp] theorem State.resetBlock_held (s : State) : (s.resetBlock).held = s.held := rfl
@[simp] theorem State.resetBlock_draws (s : State) : (s.resetBlock).draws = s.draws := rfl
@[simp] theorem State.resetBlock_oracle (s : State) : (s.resetBlock).oracle = s.oracle := rfl
@[simp] theorem State.resetBlock_wire (s : State) : (s.resetBlock).wire = s.wire := rfl
@[simp] theorem State.resetBlock_reports (s : State) : (s.resetBlock).reports = s.reports := rfl
@[simp] theorem State.resetBlock_datapath (s : State) : (s.resetBlock).datapath = s.datapath := rfl

/-! ### `State.offerWhileBusy` and `State.keepMetadata` -/

theorem State.offerWhileBusy_eq (b : Byte) (s : State) :
    s.offerWhileBusy b = { s with held := if s.params.busyPolicy = .hold then s.held ++ [b] else s.held } := by
  unfold State.offerWhileBusy
  split <;> simp [*]

@[simp] theorem State.offerWhileBusy_out (b : Byte) (s : State) : (s.offerWhileBusy b).out = s.out := by
  simp [State.offerWhileBusy_eq]
@[simp] theorem State.offerWhileBusy_rcv (b : Byte) (s : State) : (s.offerWhileBusy b).rcv = s.rcv := by
  simp [State.offerWhileBusy_eq]
@[simp] theorem State.offerWhileBusy_st (b : Byte) (s : State) : (s.offerWhileBusy b).st = s.st := by
  simp [State.offerWhileBusy_eq]
@[simp] theorem State.offerWhileBusy_idx (b : Byte) (s : State) : (s.offerWhileBusy b).idx = s.idx := by
  simp [State.offerWhileBusy_eq]
@[simp] theorem State.offerWhileBusy_retry (b : Byte) (s : State) : (s.offerWhileBusy b).retry = s.retry := by
  simp [State.offerWhileBusy_eq]
@[simp] theorem State.offerWhileBusy_err (b : Byte) (s : State) : (s.offerWhileBusy b).err = s.err := by
  simp [State.offerWhileBusy_eq]
@[simp] theorem State.offerWhileBusy_params (b : Byte) (s : State) : (s.offerWhileBusy b).params = s.params := by
  simp [State.offerWhileBusy_eq]
@[simp] theorem State.offerWhileBusy_config (b : Byte) (s : State) : (s.offerWhileBusy b).config = s.config := by
  simp [State.offerWhileBusy_eq]
@[simp] theorem State.offerWhileBusy_link (b : Byte) (s : State) : (s.offerWhileBusy b).link = s.link := by
  simp [State.offerWhileBusy_eq]
@[simp] theorem State.offerWhileBusy_inputs (b : Byte) (s : State) : (s.offerWhileBusy b).inputs = s.inputs := by
  simp [State.offerWhileBusy_eq]
@[simp] theorem State.offerWhileBusy_draws (b : Byte) (s : State) : (s.offerWhileBusy b).draws = s.draws := by
  simp [State.offerWhileBusy_eq]
@[simp] theorem State.offerWhileBusy_oracle (b : Byte) (s : State) : (s.offerWhileBusy b).oracle = s.oracle := by
  simp [State.offerWhileBusy_eq]
@[simp] theorem State.offerWhileBusy_wire (b : Byte) (s : State) : (s.offerWhileBusy b).wire = s.wire := by
  simp [State.offerWhileBusy_eq]
@[simp] theorem State.offerWhileBusy_reports (b : Byte) (s : State) : (s.offerWhileBusy b).reports = s.reports := by
  simp [State.offerWhileBusy_eq]
@[simp] theorem State.offerWhileBusy_datapath (b : Byte) (s : State) : (s.offerWhileBusy b).datapath = s.datapath := by
  simp [State.offerWhileBusy_eq]

theorem State.keepMetadata_eq (rx : Byte) (s : State) :
    s.keepMetadata rx = { s with rcv := if s.params.wireTrailer ∧ 9 ≤ s.idx then s.rcv.write (35 + s.idx) rx else s.rcv } := by
  unfold State.keepMetadata State.store
  split <;> simp [*]

@[simp] theorem State.keepMetadata_out (rx : Byte) (s : State) : (s.keepMetadata rx).out = s.out := by
  simp [State.keepMetadata_eq]
@[simp] theorem State.keepMetadata_st (rx : Byte) (s : State) : (s.keepMetadata rx).st = s.st := by
  simp [State.keepMetadata_eq]
@[simp] theorem State.keepMetadata_idx (rx : Byte) (s : State) : (s.keepMetadata rx).idx = s.idx := by
  simp [State.keepMetadata_eq]
@[simp] theorem State.keepMetadata_retry (rx : Byte) (s : State) : (s.keepMetadata rx).retry = s.retry := by
  simp [State.keepMetadata_eq]
@[simp] theorem State.keepMetadata_err (rx : Byte) (s : State) : (s.keepMetadata rx).err = s.err := by
  simp [State.keepMetadata_eq]
@[simp] theorem State.keepMetadata_params (rx : Byte) (s : State) : (s.keepMetadata rx).params = s.params := by
  simp [State.keepMetadata_eq]
@[simp] theorem State.keepMetadata_config (rx : Byte) (s : State) : (s.keepMetadata rx).config = s.config := by
  simp [State.keepMetadata_eq]
@[simp] theorem State.keepMetadata_link (rx : Byte) (s : State) : (s.keepMetadata rx).link = s.link := by
  simp [State.keepMetadata_eq]
@[simp] theorem State.keepMetadata_inputs (rx : Byte) (s : State) : (s.keepMetadata rx).inputs = s.inputs := by
  simp [State.keepMetadata_eq]
@[simp] theorem State.keepMetadata_held (rx : Byte) (s : State) : (s.keepMetadata rx).held = s.held := by
  simp [State.keepMetadata_eq]
@[simp] theorem State.keepMetadata_draws (rx : Byte) (s : State) : (s.keepMetadata rx).draws = s.draws := by
  simp [State.keepMetadata_eq]
@[simp] theorem State.keepMetadata_oracle (rx : Byte) (s : State) : (s.keepMetadata rx).oracle = s.oracle := by
  simp [State.keepMetadata_eq]
@[simp] theorem State.keepMetadata_wire (rx : Byte) (s : State) : (s.keepMetadata rx).wire = s.wire := by
  simp [State.keepMetadata_eq]
@[simp] theorem State.keepMetadata_reports (rx : Byte) (s : State) : (s.keepMetadata rx).reports = s.reports := by
  simp [State.keepMetadata_eq]
@[simp] theorem State.keepMetadata_datapath (rx : Byte) (s : State) : (s.keepMetadata rx).datapath = s.datapath := by
  simp [State.keepMetadata_eq]

end Sys2Proof.Machine
end

