-- ==== Sys2Proof/Laws/Engine.lean ====
section
/-! SUPPORT. What a step can do, said once: one lemma per shared operation, and `exec_effect`, the
inversion of every meaning that answers a next state. -/

namespace Sys2Proof.Machine

/-- A codec operation answers a next state exactly when its operands are typed, and then only its
result is new. -/
theorem State.compute_next {typed : Bool} {v : Value} {s t : State} :
    s.compute typed v = .next t ↔ typed = true ∧ t = s.putResult v := by
  unfold State.compute
  cases typed <;> simp [eq_comm]

/-- The three things a handshake sub-step can do. -/
theorem State.handshake_cases (code rx : Byte) (next : State → State) (s : State) :
    (rx = code ∧ s.handshake code rx next = next (s.setRetry 0)) ∨
    (rx ≠ code ∧ s.retry < s.params.retryBudget ∧ s.handshake code rx next = s.setRetry (s.retry + 1)) ∨
    (rx ≠ code ∧ s.params.retryBudget ≤ s.retry ∧ s.handshake code rx next = s.fail .handshakeMismatch) := by
  unfold State.handshake
  by_cases h : rx = code
  · exact .inl ⟨h, if_pos h⟩
  · by_cases h' : s.retry < s.params.retryBudget
    · exact .inr (.inl ⟨h, h', by rw [if_neg h, if_pos h']⟩)
    · exact .inr (.inr ⟨h, Nat.le_of_not_lt h', by rw [if_neg h, if_neg h']⟩)

/-- The slot an accepted `'t'` builds is canonical. -/
theorem State.wf_out_startAttempt (s : State) : s.startAttempt.out.wf = true := by
  have h := length_encSlot s.params.layout (wf_buildL1 s.config.template s.config.trainerName s.config.trainerId)
  rw [State.startAttempt_out]
  exact Memory.wf_ofBytes h.le

/-- The byte a block transmits exists exactly while it is busy. -/
theorem State.tx_isSome (s : State) : s.tx.isSome = s.st.busy := by
  unfold State.tx
  cases s.st <;> rfl

/-- The phase to which a matched handshake byte leads without a change of `idx`. -/
def matchedTo : Phase → Option Phase
  | .hsMode => some .hsMaster
  | .hsMaster => some .hsVersion
  | _ => none

/-- What a meaning that answers a next state can have done to the state. -/
inductive Effect (s : State) : State → Prop
  /-- A codec operation (R120). -/
  | computed (v : Value) : Effect s (s.putResult v)
  /-- `CONFIGURE` (R161). -/
  | configured (c : LinkConfig) (h : s.st.busy = false) : Effect s { s with link := some c }
  /-- `CMD_NOP` (R223). -/
  | nothing (h : s.st.busy = false) : Effect s s
  /-- A command byte offered while busy (R225). -/
  | offered (b : Byte) (h : s.st.busy = true) : Effect s (s.offerWhileBusy b)
  /-- `CMD_TRADE` (R221). -/
  | started (h : s.st.busy = false) : Effect s s.startAttempt
  /-- `CMD_HELP` (R222). -/
  | helped (h : s.st.busy = false) : Effect s (s.emit (.help s.params.helpText))
  /-- `HS_MODE`, `HS_MASTER` on a match (R182, R183). -/
  | matched (tx rx : Byte) (q : Phase) (h : matchedTo s.st = some q) :
      Effect s (((s.exchanged tx (.byte rx)).setRetry 0).goto q)
  /-- `HS_VERSION` on a match (R184). -/
  | agreed (tx rx : Byte) (h : s.st = .hsVersion) :
      Effect s (((s.exchanged tx (.byte rx)).setRetry 0).enter .entropy)
  /-- A handshake mismatch within the budget (R182). -/
  | retried (tx rx : Byte) (h : s.st = .hsMode ∨ s.st = .hsMaster ∨ s.st = .hsVersion)
      (hr : s.retry < s.params.retryBudget) :
      Effect s ((s.exchanged tx (.byte rx)).setRetry (s.retry + 1))
  /-- `ENTROPY`, not the last byte (R185). -/
  | filled (tx rx : Byte) (h : s.st = .entropy) (hi : s.idx + 1 < s.params.nEntropy) :
      Effect s (s.exchanged tx (.byte rx)).advance
  /-- `ENTROPY`, the last byte (R185). -/
  | filledAll (tx rx : Byte) (h : s.st = .entropy) (hi : s.idx + 1 = s.params.nEntropy) :
      Effect s ((s.exchanged tx (.byte rx)).enter .metadata)
  /-- `METADATA`, not the last byte (R186). -/
  | described (tx rx : Byte) (h : s.st = .metadata) (hi : s.idx + 1 < metaLen) :
      Effect s ((s.exchanged tx (.byte rx)).keepMetadata rx).advance
  /-- `METADATA`, the last byte (R186). -/
  | describedAll (tx rx : Byte) (h : s.st = .metadata) (hi : s.idx + 1 = metaLen) :
      Effect s (((s.exchanged tx (.byte rx)).keepMetadata rx).enter .select)
  /-- `SELECT` (R187). -/
  | selected (tx rx : Byte) (h : s.st = .select) :
      Effect s ((s.exchanged tx (.byte rx)).enter .record)
  /-- `RECORD`, not the last byte (R188). -/
  | stored (tx rx : Byte) (h : s.st = .record) (hi : s.idx + 1 < coreLen) :
      Effect s ((s.exchanged tx (.byte rx)).store s.idx rx).advance
  /-- `RECORD`, the last byte (R188). -/
  | storedAll (tx rx : Byte) (h : s.st = .record) (hi : s.idx + 1 = coreLen) :
      Effect s (((s.exchanged tx (.byte rx)).store s.idx rx).enter .confirm)
  /-- `CONFIRM` on a match (R189). -/
  | confirmed (tx rx : Byte) (h : s.st = .confirm) : Effect s (s.exchanged tx (.byte rx)).finish
  /-- An engine step that fails the attempt (R241, R244). -/
  | failed (tx : Byte) (ans : Answer) (c : FailCause) (h : s.st.busy = true) (hc : c ≠ .none) :
      Effect s ((s.exchanged tx ans).fail c)

theorem execTimeoutAny_effect {s t : State} (h : execTimeoutAny s = .next t) : Effect s t := by
  unfold execTimeoutAny at h
  have hb := s.tx_isSome
  split at h
  · next tx he =>
    injection h with h
    subst h
    exact .failed tx .timeout .linkTimeout (by rw [← hb, he]; rfl) (by decide)
  · cases h

theorem execHsMode_effect {rx : Byte} {s t : State} (h : execHsMode rx s = .next t) : Effect s t := by
  unfold execHsMode at h
  split at h
  · next hp =>
    injection h with h
    subst h
    rcases State.handshake_cases s.params.modeCode rx (State.goto .hsMaster)
      (s.exchanged s.params.modeCode (.byte rx)) with ⟨_, e⟩ | ⟨_, hr, e⟩ | ⟨_, _, e⟩ <;> rw [e]
    · exact .matched _ _ _ (by rw [hp]; rfl)
    · exact .retried _ _ (.inl hp) hr
    · exact .failed _ _ _ (by rw [hp]; rfl) (by decide)
  · cases h

theorem execHsMaster_effect {rx : Byte} {s t : State} (h : execHsMaster rx s = .next t) : Effect s t := by
  unfold execHsMaster at h
  split at h
  · next hp =>
    injection h with h
    subst h
    rcases State.handshake_cases s.params.masterCode rx (State.goto .hsVersion)
      (s.exchanged s.params.masterCode (.byte rx)) with ⟨_, e⟩ | ⟨_, hr, e⟩ | ⟨_, _, e⟩ <;> rw [e]
    · exact .matched _ _ _ (by rw [hp]; rfl)
    · exact .retried _ _ (.inr (.inl hp)) hr
    · exact .failed _ _ _ (by rw [hp]; rfl) (by decide)
  · cases h

theorem execHsVersion_effect {rx : Byte} {s t : State} (h : execHsVersion rx s = .next t) : Effect s t := by
  unfold execHsVersion at h
  split at h
  · next hp =>
    injection h with h
    subst h
    rcases State.handshake_cases s.params.versionCode rx (State.enter .entropy)
      (s.exchanged s.params.versionCode (.byte rx)) with ⟨_, e⟩ | ⟨_, hr, e⟩ | ⟨_, _, e⟩ <;> rw [e]
    · exact .agreed _ _ hp
    · exact .retried _ _ (.inr (.inr hp)) hr
    · exact .failed _ _ _ (by rw [hp]; rfl) (by decide)
  · cases h

theorem execEntropy_effect {rx : Byte} {s t : State} (h : execEntropy rx s = .next t) : Effect s t := by
  simp only [execEntropy] at h
  split at h
  · next hp =>
    split at h <;> (injection h with h; subst h)
    · exact .filledAll _ _ hp.1 ‹_›
    · exact .filled _ _ hp.1 (by omega)
  · cases h

theorem execMetadata_effect {rx : Byte} {s t : State} (h : execMetadata rx s = .next t) : Effect s t := by
  simp only [execMetadata] at h
  split at h
  · next hp =>
    split at h <;> (injection h with h; subst h)
    · exact .describedAll _ _ hp.1 (by simp only [metaLen] at *; omega)
    · exact .described _ _ hp.1 (by simp only [metaLen] at *; omega)
  · cases h

theorem execSelect_effect {rx : Byte} {s t : State} (h : execSelect rx s = .next t) : Effect s t := by
  simp only [execSelect] at h
  split at h
  · next hp =>
    split at h <;> (injection h with h; subst h)
    · exact .selected _ _ hp
    · exact .failed _ _ _ (by rw [hp]; rfl) (by decide)
  · cases h

theorem execRecord_effect {rx : Byte} {s t : State} (h : execRecord rx s = .next t) : Effect s t := by
  simp only [execRecord] at h
  split at h
  · next hp =>
    split at h <;> (injection h with h; subst h)
    · exact .storedAll _ _ hp.1 (by simp only [coreLen] at *; omega)
    · exact .stored _ _ hp.1 (by simp only [coreLen] at *; omega)
  · cases h

theorem execConfirm_effect {rx : Byte} {s t : State} (h : execConfirm rx s = .next t) : Effect s t := by
  simp only [execConfirm] at h
  split at h
  · next hp =>
    split at h <;> (injection h with h; subst h)
    · exact .confirmed _ _ hp
    · exact .failed _ _ _ (by rw [hp]; rfl) (by decide)
  · cases h

theorem State.answered_effect {ans : Answer} {s t : State} (h : s.answered ans = .next t) : Effect s t := by
  unfold State.answered at h
  split at h
  · exact execTimeoutAny_effect h
  · exact execHsMode_effect h
  · exact execHsMaster_effect h
  · exact execHsVersion_effect h
  · exact execEntropy_effect h
  · exact execMetadata_effect h
  · exact execSelect_effect h
  · exact execRecord_effect h
  · exact execConfirm_effect h
  all_goals cases h

/-- A command row's meaning: while busy R225, else the command. -/
theorem command_effect {b : Byte} {s t u : State} (hu : s.st.busy = false → Effect s u)
    (h : (if s.st.busy then Host.Outcome.next (s.offerWhileBusy b) else .next u : Host.Outcome State Fault Refusal) = .next t) :
    Effect s t := by
  cases hb : s.st.busy <;> rw [hb] at h <;> (injection h with h; subst h)
  · exact hu hb
  · exact .offered b hb

theorem State.compute_effect {ok : Bool} {v : Value} {s t : State} (h : s.compute ok v = .next t) : Effect s t := by
  obtain ⟨-, rfl⟩ := State.compute_next.mp h
  exact .computed v

/-- The inversion of every meaning: if it answers a next state, that state is one of these. -/
theorem exec_effect {i : Instr} {s t : State} (h : exec i s = .next t) : Effect s t := by
  cases i
  case cmdTrade => exact command_effect .started h
  case cmdHelp => exact command_effect .helped h
  case cmdNop b =>
    simp only [exec, execCmdNop] at h
    split at h
    · cases h
    · exact command_effect .nothing h
  case cmdWhileBusy b =>
    simp only [exec, execCmdWhileBusy] at h
    cases hb : s.st.busy <;> simp only [hb, if_true, Bool.false_eq_true, if_false] at h
    · split at h
      · injection h with h; subst h; exact .started hb
      · split at h <;> (injection h with h; subst h)
        · exact .helped hb
        · exact .nothing hb
    · injection h with h; subst h; exact .offered b hb
  case hsMode => exact execHsMode_effect h
  case hsMaster => exact execHsMaster_effect h
  case hsVersion => exact execHsVersion_effect h
  case entropy => exact execEntropy_effect h
  case metadata => exact execMetadata_effect h
  case select => exact execSelect_effect h
  case record => exact execRecord_effect h
  case confirm => exact execConfirm_effect h
  case timeoutAny => exact execTimeoutAny_effect h
  case configure c =>
    simp only [exec, execConfigure] at h
    cases hb : s.st.busy <;> simp only [hb, if_true, Bool.false_eq_true, if_false] at h
    · injection h with h; subst h; exact .configured c hb
    · cases h
  case xchg tx ans =>
    simp only [exec, execXchg] at h
    split at h
    · exact State.answered_effect h
    · cases h
  all_goals exact State.compute_effect (by rw [exec] at h; exact h)

end Sys2Proof.Machine
end

