-- ==== Sys2Proof/Laws/Step.lean ====
section
/-! SUPPORT. What a step can do, said once: the inversion of `State.pending` and of `step`, and the engine
step on an answer. -/

namespace Sys2Proof.Machine

/-- Consuming an input changes only the queues of what is still to come. -/
theorem State.pending_frame {s u : State} {x : Input} (h : s.pending = some (x, u)) :
    u = { s with inputs := u.inputs, held := u.held } := by
  unfold State.pending at h
  split at h
  · injection h with h; injection h with _ h; subst h; rfl
  · injection h with h; injection h with _ h; subst h; rfl
  · injection h with h; injection h with _ h; subst h; rfl
  · cases h

/-- A busy block consumes what the environment offers, whatever the host transport holds. -/
theorem State.pending_busy {s : State} {x : Input} {xs : List Input} (hb : s.st.busy = true)
    (h : s.inputs = x :: xs) : s.pending = some (x, { s with inputs := xs }) := by
  simp [State.pending, hb, h]

/-- A non-busy block accepts the byte the host transport has held longest. -/
theorem State.pending_held {s : State} {b : Byte} {bs : List Byte} (hb : s.st.busy = false)
    (h : s.held = b :: bs) : s.pending = some (.host [b], { s with held := bs }) := by
  simp [State.pending, hb, h]

/-- The four things a step that answers a next state can do: poll, see a change of the configuration
inputs, be reset, or run the operation that the consumed input selects. -/
theorem step_cases {s t : State} (h : step s = .next t) :
    t = s ∨ (∃ c u, s.pending = some (.config c, u) ∧ t = { u with config := c }) ∨
    (∃ u, s.pending = some (.reset, u) ∧ t = u.resetBlock) ∨
    (∃ x u i, s.pending = some (x, u) ∧ decode u.st x = .ok i ∧ exec i u = .next t) := by
  unfold step at h
  split at h
  · injection h with h; exact .inl h.symm
  · next c u hp => injection h with h; exact .inr (.inl ⟨c, u, hp, h.symm⟩)
  · next u hp => injection h with h; exact .inr (.inr (.inl ⟨u, hp, h.symm⟩))
  · next x u _ _ hp =>
    split at h
    · next i hd => exact .inr (.inr (.inr ⟨x, u, i, hp, hd, h⟩))
    · cases h

/-- An input that decodes to an operation is run. -/
theorem step_eq_exec {s u : State} {x : Input} {i : Instr} (hp : s.pending = some (x, u))
    (hd : decode u.st x = .ok i) : step s = exec i u := by
  unfold step
  rw [hp]
  cases x with
  | config c => cases hd
  | reset => cases hd
  | host b => simp only [hd]
  | answer a => simp only [hd]
  | call row args => simp only [hd]

end Sys2Proof.Machine
end

