-- ==== Sys2Proof/Laws/Loopback.lean ====
section
/-! SUPPORT. What a step of two blocks over a loopback does: one lemma per kind of step, and runs in
pieces. -/

namespace Sys2Proof.Machine

@[simp] theorem Pair.both_next (a b : State) : Pair.both (.next a) (.next b) = .next ⟨a, b⟩ := rfl

/-- A pair steps exactly when both of its sides do. -/
theorem Pair.both_eq_next {x y : Host.Outcome State Fault Refusal} {q : Pair} :
    Pair.both x y = .next q ↔ x = .next q.a ∧ y = .next q.b := by
  obtain ⟨a, b⟩ := q
  cases x <;> cases y <;> simp [Pair.both]

@[simp] theorem Pair.run_nil (p : Pair) : Pair.run [] p = .next p := rfl

/-- A run whose first step answers a next pair. -/
theorem Pair.run_cons {e : PairEvent} {es : List PairEvent} {p q : Pair} (h : p.step e = .next q) :
    Pair.run (e :: es) p = Pair.run es q := by
  simp only [Pair.run, h]

/-- A run in two pieces. -/
theorem Pair.run_append {es fs : List PairEvent} {p q : Pair} (h : Pair.run es p = .next q) :
    Pair.run (es ++ fs) p = Pair.run fs q := by
  induction es generalizing p with
  | nil => injection h with h; subst h; rfl
  | cons e es ih =>
    simp only [Pair.run, List.cons_append] at h ⊢
    split at h
    · exact ih h
    · cases h
    · cases h

/-- R166(a), (d): two busy blocks step together. -/
theorem Pair.step_joint {e : LinkEvent} {p : Pair} {ta tb : Byte} (ha : p.a.tx = some ta) (hb : p.b.tx = some tb) :
    p.step (.link e) =
      Pair.both (p.a.linkStep (LinkEvent.deliver e.toA tb)) (p.b.linkStep (LinkEvent.deliver e.toB ta)) := by
  simp only [Pair.step, Pair.linkStep, ha, hb]

/-- Two blocks of which neither is busy exchange nothing. -/
theorem Pair.step_none {e : LinkEvent} {p : Pair} (ha : p.a.tx = none) (hb : p.b.tx = none) :
    p.step (.link e) = .next p := by
  simp only [Pair.step, Pair.linkStep, ha, hb]

/-- R166(b), (c): A is busy and B is not. -/
theorem Pair.step_aloneA {e : LinkEvent} {p : Pair} {ta : Byte} (ha : p.a.tx = some ta) (hb : p.b.tx = none) :
    p.step (.link e) = Pair.both (p.a.aloneStep p.b e.waits) (.next p.b) := by
  simp only [Pair.step, Pair.linkStep, ha, hb]

/-- R166(b), (c): B is busy and A is not. -/
theorem Pair.step_aloneB {e : LinkEvent} {p : Pair} {tb : Byte} (ha : p.a.tx = none) (hb : p.b.tx = some tb) :
    p.step (.link e) = Pair.both (.next p.a) (p.b.aloneStep p.a e.waits) := by
  simp only [Pair.step, Pair.linkStep, ha, hb]

/-- R166(c): the wait. -/
theorem State.aloneStep_waits {peer s : State} (hp : peer.st = .idle) (ht : peer.tradeToCome = true) :
    s.aloneStep peer true = .next s := if_pos ⟨hp, ht, rfl⟩

/-- R166(b), (c): the answer `Timeout`, in every case but the wait. -/
theorem State.aloneStep_timeout {peer s : State} {waits : Bool}
    (h : ¬ (peer.st = .idle ∧ peer.tradeToCome = true ∧ waits = true)) :
    s.aloneStep peer waits = s.linkStep .timeout := if_neg h

/-- An own step of the peer that is no reset in mid-attempt is not seen. -/
theorem State.peerStep_next {s peer : State} (h : peer.abandons = false) : s.peerStep peer = .next s :=
  if_neg fun hc => Bool.false_ne_true (h.symm.trans hc.1)

/-- A block in no attempt sees nothing of an own step of its peer. -/
theorem State.peerStep_idle {s peer : State} (h : s.st.busy = false) : s.peerStep peer = .next s :=
  if_neg fun hc => Bool.false_ne_true (h.symm.trans hc.2)

theorem State.abandons_of_not_busy {s : State} (h : s.st.busy = false) : s.abandons = false := by
  simp [State.abandons, h]

/-- A busy block's exchange that times out. -/
theorem State.linkStep_timeout {s : State} (hb : s.st.busy = true) :
    s.linkStep .timeout = execTimeoutAny s := by
  unfold State.linkStep
  cases h : s.st <;> first | rfl | (rw [h] at hb; cases hb)

/-- R251: a block that is not busy accepts the byte its own host offers. -/
theorem State.ownStep_host {s : State} {b : Byte} {xs : List Input} (hb : s.st.busy = false) (hh : s.held = [])
    (hi : s.inputs = .host [b] :: xs) : s.ownStep = exec (decodeCommand b) { s with inputs := xs } := by
  have hp : s.pending = some (.host [b], { s with inputs := xs }) := by simp [State.pending, hb, hh, hi]
  have hs : s.ownStep = step s := by simp [State.ownStep, hb, hp, Input.isAnswer]
  rw [hs, step_eq_exec hp (i := decodeCommand b) (by simp [decode, decodeHost, hb])]

/-- R271: the own step of a side that is reset in mid-attempt. -/
theorem State.ownStep_reset {s : State} {xs : List Input} (hb : s.st.busy = true) (hi : s.inputs = .reset :: xs) :
    s.ownStep = .next { s with inputs := xs }.resetBlock := by
  have hp := State.pending_busy hb hi
  simp [State.ownStep, hi, hp, Input.isAnswer, step]

/-- R271: the reset of A in mid-attempt, and the timeout of its busy peer. -/
theorem Pair.step_abandonA {p : Pair} {xs : List Input} (ha : p.a.st.busy = true) (hb : p.b.st.busy = true)
    (hi : p.a.inputs = .reset :: xs) :
    p.step .ownA = Pair.both (.next { p.a with inputs := xs }.resetBlock) (execTimeoutAny p.b) := by
  have hab : p.a.abandons = true := by simp [State.abandons, ha, hi]
  simp only [Pair.step, State.ownStep_reset ha hi, State.peerStep, hab, hb, and_self, if_true,
    State.linkStep_timeout hb]

theorem Pair.step_abandonB {p : Pair} {xs : List Input} (ha : p.a.st.busy = true) (hb : p.b.st.busy = true)
    (hi : p.b.inputs = .reset :: xs) :
    p.step .ownB = Pair.both (execTimeoutAny p.a) (.next { p.b with inputs := xs }.resetBlock) := by
  have hab : p.b.abandons = true := by simp [State.abandons, hb, hi]
  simp only [Pair.step, State.ownStep_reset hb hi, State.peerStep, hab, ha, and_self, if_true,
    State.linkStep_timeout ha]

end Sys2Proof.Machine
end

