-- ==== Sys2Proof/Laws/PerInstr.lean ====
section
/-! SUPPORT. Statements made per instruction: `EncodesAtRow`, an operation's encoding has the form of its
row of spec/opcode_table.json. -/

namespace Sys2Proof.Laws.EncodesAtRow

/-- The form of an operation's encoding: a command row is one byte on the host command channel (R81,
R98); an engine row is the answer of an exchange (R94, R96), `TIMEOUT_ANY` the one without a byte; any
other row is called by its number (R102). -/
def Statement (i : Instr) : Prop :=
  match encode i with
  | .host bytes => bytes.length = 1 ∧ ∀ st, decodeHost st bytes ≠ .error .commandLength
  | .answer a => (a = .timeout ↔ i = .timeoutAny) ∧ ∃ st, decodeAnswer st a = .ok i
  | .call row args => 13 ≤ row ∧ row < 69 ∧ parseCall row args ≠ .error .unknownRow ∧ parseCall row args ≠ .error .operandForm
  | .config _ | .reset => False

/-- A number that is too wide is refused as ill typed (R121), for no other reason. -/
theorem sized_error {w n : Nat} {k : BitVec w → Instr} {e : DecodeError} (he : e ≠ .operandIllTyped) :
    sized w n k ≠ .error e := by
  unfold sized
  split <;> simp [he.symm]

/-- A command byte is one byte, in every phase. -/
theorem decodeHost_byte (st : Phase) (b : Byte) : decodeHost st [b] ≠ .error .commandLength := nofun

theorem cmdTrade : Statement .cmdTrade := ⟨rfl, fun st => decodeHost_byte st _⟩

theorem cmdHelp : Statement .cmdHelp := ⟨rfl, fun st => decodeHost_byte st _⟩

theorem cmdNop : ∀ x, Statement (.cmdNop x) := fun _ => ⟨rfl, fun st => decodeHost_byte st _⟩

theorem cmdWhileBusy : ∀ x, Statement (.cmdWhileBusy x) := fun _ => ⟨rfl, fun st => decodeHost_byte st _⟩

theorem hsMode : ∀ x, Statement (.hsMode x) := fun _ => ⟨⟨nofun, nofun⟩, .hsMode, rfl⟩

theorem hsMaster : ∀ x, Statement (.hsMaster x) := fun _ => ⟨⟨nofun, nofun⟩, .hsMaster, rfl⟩

theorem hsVersion : ∀ x, Statement (.hsVersion x) := fun _ => ⟨⟨nofun, nofun⟩, .hsVersion, rfl⟩

theorem entropy : ∀ x, Statement (.entropy x) := fun _ => ⟨⟨nofun, nofun⟩, .entropy, rfl⟩

theorem metadata : ∀ x, Statement (.metadata x) := fun _ => ⟨⟨nofun, nofun⟩, .metadata, rfl⟩

theorem select : ∀ x, Statement (.select x) := fun _ => ⟨⟨nofun, nofun⟩, .select, rfl⟩

theorem record : ∀ x, Statement (.record x) := fun _ => ⟨⟨nofun, nofun⟩, .record, rfl⟩

theorem confirm : ∀ x, Statement (.confirm x) := fun _ => ⟨⟨nofun, nofun⟩, .confirm, rfl⟩

theorem timeoutAny : Statement .timeoutAny := ⟨⟨fun _ => rfl, fun _ => rfl⟩, .hsMode, rfl⟩

theorem configure : ∀ x, Statement (.configure x) := fun _ =>
  ⟨Nat.le_of_ble_eq_true rfl, Nat.le_of_ble_eq_true rfl, nofun, nofun⟩

theorem xchg : ∀ x y, Statement (.xchg x y) := by
  intro x y
  refine ⟨Nat.le_of_ble_eq_true rfl, Nat.le_of_ble_eq_true rfl, ?_, ?_⟩ <;> simp only [parseCall, parseXchg] <;>
    exact sized_error nofun

theorem le16Get : ∀ x y, Statement (.le16Get x y) := fun _ _ =>
  ⟨Nat.le_of_ble_eq_true rfl, Nat.le_of_ble_eq_true rfl, nofun, nofun⟩

theorem le16Put : ∀ x y z, Statement (.le16Put x y z) := fun _ _ _ =>
  ⟨Nat.le_of_ble_eq_true rfl, Nat.le_of_ble_eq_true rfl, sized_error (e := .unknownRow) nofun,
    sized_error (e := .operandForm) nofun⟩

theorem expGet : ∀ x y, Statement (.expGet x y) := fun _ _ =>
  ⟨Nat.le_of_ble_eq_true rfl, Nat.le_of_ble_eq_true rfl, nofun, nofun⟩

theorem expPut : ∀ x y z, Statement (.expPut x y z) := fun _ _ _ =>
  ⟨Nat.le_of_ble_eq_true rfl, Nat.le_of_ble_eq_true rfl, sized_error (e := .unknownRow) nofun,
    sized_error (e := .operandForm) nofun⟩

theorem fieldGet : ∀ x y, Statement (.fieldGet x y) := fun _ _ =>
  ⟨Nat.le_of_ble_eq_true rfl, Nat.le_of_ble_eq_true rfl, nofun, nofun⟩

theorem fieldPut : ∀ x y z, Statement (.fieldPut x y z) := fun _ _ _ =>
  ⟨Nat.le_of_ble_eq_true rfl, Nat.le_of_ble_eq_true rfl, nofun, nofun⟩

theorem encCore : ∀ x, Statement (.encCore x) := fun _ =>
  ⟨Nat.le_of_ble_eq_true rfl, Nat.le_of_ble_eq_true rfl, nofun, nofun⟩

theorem decCore : ∀ x, Statement (.decCore x) := fun _ =>
  ⟨Nat.le_of_ble_eq_true rfl, Nat.le_of_ble_eq_true rfl, nofun, nofun⟩

theorem padString : ∀ x y, Statement (.padString x y) := fun _ _ =>
  ⟨Nat.le_of_ble_eq_true rfl, Nat.le_of_ble_eq_true rfl, nofun, nofun⟩

theorem setName : ∀ x y z, Statement (.setName x y z) := fun _ _ _ =>
  ⟨Nat.le_of_ble_eq_true rfl, Nat.le_of_ble_eq_true rfl, nofun, nofun⟩

theorem encTrailer : ∀ x, Statement (.encTrailer x) := fun _ =>
  ⟨Nat.le_of_ble_eq_true rfl, Nat.le_of_ble_eq_true rfl, nofun, nofun⟩

theorem decTrailer : ∀ x, Statement (.decTrailer x) := fun _ =>
  ⟨Nat.le_of_ble_eq_true rfl, Nat.le_of_ble_eq_true rfl, nofun, nofun⟩

theorem content : ∀ x, Statement (.content x) := fun _ =>
  ⟨Nat.le_of_ble_eq_true rfl, Nat.le_of_ble_eq_true rfl, nofun, nofun⟩

theorem encSlot : ∀ x, Statement (.encSlot x) := fun _ =>
  ⟨Nat.le_of_ble_eq_true rfl, Nat.le_of_ble_eq_true rfl, nofun, nofun⟩

theorem decSlot : ∀ x, Statement (.decSlot x) := fun _ =>
  ⟨Nat.le_of_ble_eq_true rfl, Nat.le_of_ble_eq_true rfl, nofun, nofun⟩

theorem ivHp : ∀ x, Statement (.ivHp x) := fun _ =>
  ⟨Nat.le_of_ble_eq_true rfl, Nat.le_of_ble_eq_true rfl, sized_error (e := .unknownRow) nofun,
    sized_error (e := .operandForm) nofun⟩

theorem ppPack : ∀ x y, Statement (.ppPack x y) := by
  intro x y
  refine ⟨Nat.le_of_ble_eq_true rfl, Nat.le_of_ble_eq_true rfl, ?_, ?_⟩ <;> simp only [parseCall, oneWord] <;>
    exact sized_error nofun

theorem ppGetCur : ∀ x, Statement (.ppGetCur x) := fun _ =>
  ⟨Nat.le_of_ble_eq_true rfl, Nat.le_of_ble_eq_true rfl, sized_error (e := .unknownRow) nofun,
    sized_error (e := .operandForm) nofun⟩

theorem ppGetUps : ∀ x, Statement (.ppGetUps x) := fun _ =>
  ⟨Nat.le_of_ble_eq_true rfl, Nat.le_of_ble_eq_true rfl, sized_error (e := .unknownRow) nofun,
    sized_error (e := .operandForm) nofun⟩

theorem ivGet : ∀ x y, Statement (.ivGet x y) := fun _ _ =>
  ⟨Nat.le_of_ble_eq_true rfl, Nat.le_of_ble_eq_true rfl, sized_error (e := .unknownRow) nofun,
    sized_error (e := .operandForm) nofun⟩

theorem ivPack : ∀ x y z w, Statement (.ivPack x y z w) := by
  intro x y z w
  refine ⟨Nat.le_of_ble_eq_true rfl, Nat.le_of_ble_eq_true rfl, ?_, ?_⟩ <;> simp only [parseCall, oneWord] <;>
    exact sized_error nofun

theorem buildL1 : ∀ x y z, Statement (.buildL1 x y z) := fun _ _ _ =>
  ⟨Nat.le_of_ble_eq_true rfl, Nat.le_of_ble_eq_true rfl, sized_error (e := .unknownRow) nofun,
    sized_error (e := .operandForm) nofun⟩

theorem metaOut : ∀ x, Statement (.metaOut x) := fun _ =>
  ⟨Nat.le_of_ble_eq_true rfl, Nat.le_of_ble_eq_true rfl, nofun, nofun⟩

theorem fieldSpeciesId : ∀ x, Statement (.fieldSpeciesId x) := fun _ =>
  ⟨Nat.le_of_ble_eq_true rfl, Nat.le_of_ble_eq_true rfl, nofun, nofun⟩

theorem fieldCurrentHp : ∀ x, Statement (.fieldCurrentHp x) := fun _ =>
  ⟨Nat.le_of_ble_eq_true rfl, Nat.le_of_ble_eq_true rfl, nofun, nofun⟩

theorem fieldMaxHp : ∀ x, Statement (.fieldMaxHp x) := fun _ =>
  ⟨Nat.le_of_ble_eq_true rfl, Nat.le_of_ble_eq_true rfl, nofun, nofun⟩

theorem fieldAttack : ∀ x, Statement (.fieldAttack x) := fun _ =>
  ⟨Nat.le_of_ble_eq_true rfl, Nat.le_of_ble_eq_true rfl, nofun, nofun⟩

theorem fieldDefense : ∀ x, Statement (.fieldDefense x) := fun _ =>
  ⟨Nat.le_of_ble_eq_true rfl, Nat.le_of_ble_eq_true rfl, nofun, nofun⟩

theorem fieldSpeed : ∀ x, Statement (.fieldSpeed x) := fun _ =>
  ⟨Nat.le_of_ble_eq_true rfl, Nat.le_of_ble_eq_true rfl, nofun, nofun⟩

theorem fieldSpecial : ∀ x, Statement (.fieldSpecial x) := fun _ =>
  ⟨Nat.le_of_ble_eq_true rfl, Nat.le_of_ble_eq_true rfl, nofun, nofun⟩

theorem fieldLevel : ∀ x, Statement (.fieldLevel x) := fun _ =>
  ⟨Nat.le_of_ble_eq_true rfl, Nat.le_of_ble_eq_true rfl, nofun, nofun⟩

theorem fieldLevelInBox : ∀ x, Statement (.fieldLevelInBox x) := fun _ =>
  ⟨Nat.le_of_ble_eq_true rfl, Nat.le_of_ble_eq_true rfl, nofun, nofun⟩

theorem fieldStatusCondition : ∀ x, Statement (.fieldStatusCondition x) := fun _ =>
  ⟨Nat.le_of_ble_eq_true rfl, Nat.le_of_ble_eq_true rfl, nofun, nofun⟩

theorem fieldType1 : ∀ x, Statement (.fieldType1 x) := fun _ =>
  ⟨Nat.le_of_ble_eq_true rfl, Nat.le_of_ble_eq_true rfl, nofun, nofun⟩

theorem fieldType2 : ∀ x, Statement (.fieldType2 x) := fun _ =>
  ⟨Nat.le_of_ble_eq_true rfl, Nat.le_of_ble_eq_true rfl, nofun, nofun⟩

theorem fieldCatchRateOrHeldItem : ∀ x, Statement (.fieldCatchRateOrHeldItem x) := fun _ =>
  ⟨Nat.le_of_ble_eq_true rfl, Nat.le_of_ble_eq_true rfl, nofun, nofun⟩

theorem fieldMove1 : ∀ x, Statement (.fieldMove1 x) := fun _ =>
  ⟨Nat.le_of_ble_eq_true rfl, Nat.le_of_ble_eq_true rfl, nofun, nofun⟩

theorem fieldMove2 : ∀ x, Statement (.fieldMove2 x) := fun _ =>
  ⟨Nat.le_of_ble_eq_true rfl, Nat.le_of_ble_eq_true rfl, nofun, nofun⟩

theorem fieldMove3 : ∀ x, Statement (.fieldMove3 x) := fun _ =>
  ⟨Nat.le_of_ble_eq_true rfl, Nat.le_of_ble_eq_true rfl, nofun, nofun⟩

theorem fieldMove4 : ∀ x, Statement (.fieldMove4 x) := fun _ =>
  ⟨Nat.le_of_ble_eq_true rfl, Nat.le_of_ble_eq_true rfl, nofun, nofun⟩

theorem fieldPp1 : ∀ x, Statement (.fieldPp1 x) := fun _ =>
  ⟨Nat.le_of_ble_eq_true rfl, Nat.le_of_ble_eq_true rfl, nofun, nofun⟩

theorem fieldPp2 : ∀ x, Statement (.fieldPp2 x) := fun _ =>
  ⟨Nat.le_of_ble_eq_true rfl, Nat.le_of_ble_eq_true rfl, nofun, nofun⟩

theorem fieldPp3 : ∀ x, Statement (.fieldPp3 x) := fun _ =>
  ⟨Nat.le_of_ble_eq_true rfl, Nat.le_of_ble_eq_true rfl, nofun, nofun⟩

theorem fieldPp4 : ∀ x, Statement (.fieldPp4 x) := fun _ =>
  ⟨Nat.le_of_ble_eq_true rfl, Nat.le_of_ble_eq_true rfl, nofun, nofun⟩

theorem fieldOtId : ∀ x, Statement (.fieldOtId x) := fun _ =>
  ⟨Nat.le_of_ble_eq_true rfl, Nat.le_of_ble_eq_true rfl, nofun, nofun⟩

theorem fieldExpPoints : ∀ x, Statement (.fieldExpPoints x) := fun _ =>
  ⟨Nat.le_of_ble_eq_true rfl, Nat.le_of_ble_eq_true rfl, nofun, nofun⟩

theorem fieldHpEv : ∀ x, Statement (.fieldHpEv x) := fun _ =>
  ⟨Nat.le_of_ble_eq_true rfl, Nat.le_of_ble_eq_true rfl, nofun, nofun⟩

theorem fieldAttackEv : ∀ x, Statement (.fieldAttackEv x) := fun _ =>
  ⟨Nat.le_of_ble_eq_true rfl, Nat.le_of_ble_eq_true rfl, nofun, nofun⟩

theorem fieldDefenseEv : ∀ x, Statement (.fieldDefenseEv x) := fun _ =>
  ⟨Nat.le_of_ble_eq_true rfl, Nat.le_of_ble_eq_true rfl, nofun, nofun⟩

theorem fieldSpeedEv : ∀ x, Statement (.fieldSpeedEv x) := fun _ =>
  ⟨Nat.le_of_ble_eq_true rfl, Nat.le_of_ble_eq_true rfl, nofun, nofun⟩

theorem fieldSpecialEv : ∀ x, Statement (.fieldSpecialEv x) := fun _ =>
  ⟨Nat.le_of_ble_eq_true rfl, Nat.le_of_ble_eq_true rfl, nofun, nofun⟩

theorem fieldIvData : ∀ x, Statement (.fieldIvData x) := fun _ =>
  ⟨Nat.le_of_ble_eq_true rfl, Nat.le_of_ble_eq_true rfl, nofun, nofun⟩

theorem fieldNickname : ∀ x, Statement (.fieldNickname x) := fun _ =>
  ⟨Nat.le_of_ble_eq_true rfl, Nat.le_of_ble_eq_true rfl, nofun, nofun⟩

theorem fieldOtName : ∀ x, Statement (.fieldOtName x) := fun _ =>
  ⟨Nat.le_of_ble_eq_true rfl, Nat.le_of_ble_eq_true rfl, nofun, nofun⟩

end Sys2Proof.Laws.EncodesAtRow
end

