-- ==== Sys2Proof/Tests/Slice0.lean ====
section
/-! SUPPORT. Tests: the decoding of words written out from spec/30_encoding.md, ill-formed terms that the
well-formedness check refuses, and vectors of spec/95_test_vectors.md (under its test instantiation T0),
one step each. Witnesses of the obligations' hypotheses stand in Tests/Witnesses.lean. -/

namespace Sys2Proof.Tests
open Sys2Proof.Machine

/-! ### The test instantiation T0 (spec/92_eei_decisions.md) -/

/-- T0. -/
def t0 : Params :=
  { layout := layoutList, modeCode := 0x60, masterCode := 0x01, versionCode := 0x10, ackCode := 0x7F,
    selBase := 0x70, retryBudget := 2, nEntropy := 3, wireTrailer := false, busyPolicy := .hold,
    helpText := [0x74, 0x68] }

/-- The document's trainer name as V7 supplies it. -/
def rp2040 : List Byte := [0x52, 0x50, 0x32, 0x30, 0x34, 0x30]

/-- A block after reset, with T0 and the configuration of V70. -/
def blank : State := { State.reset with params := t0, config := ⟨magikarp, rp2040, 0x1234⟩ }

/-- The bytes of V2. -/
def v2 : List Byte :=
  [0x81, 0x0B, 0x00, 0x0B, 0x00, 0x05, 0x00, 0x06, 0x00, 0x06, 0x00, 0x05, 0x00, 0x01, 0x01, 0x00] ++
  [0x15, 0x15, 0x00, 0x96, 0x00, 0x00, 0x00, 0x28, 0x00, 0x00, 0x00, 0x34, 0x12, 0x00, 0x00, 0x00] ++
  [0x00, 0x00, 0x00, 0x00, 0x00, 0x00, 0x00, 0x00, 0x00, 0x00, 0x00, 0x00, 0x50, 0x50, 0x50, 0x50] ++
  [0x50, 0x50, 0x50, 0x50, 0x50, 0x50, 0x50, 0x52, 0x50, 0x32, 0x30, 0x34, 0x30, 0x50]

/-- A block in a phase of an attempt, `OUT` being V2. -/
def at_ (st : Phase) (idx retry : Nat) : State :=
  { blank with st := st, idx := idx, retry := retry, out := Memory.ofBytes v2 }

/-- The same with the trailer wired. -/
def wired (s : State) : State := { s with params := { s.params with wireTrailer := true } }

/-- What a step's next state shows. -/
def after {α : Type} (o : Host.Outcome State Fault Refusal) (f : State → α) : Option α :=
  match o with
  | .next t => some (f t)
  | .fault _ => none
  | .refused _ => none

/-- The registers the vectors list. -/
def regs (s : State) : Phase × Nat × Nat × FailCause := (s.st, s.idx, s.retry, s.err)

/-- The bytes transmitted. -/
def sent (s : State) : List Byte := s.wire.map Exchange.tx

/-- RICH, V3. -/
def rich : CoreRecord :=
  { speciesId := 0x99, currentHp := 0x0123, maxHp := 0x0145, attack := 0x0067, defense := 0x0089,
    speed := 0x00AB, special := 0x00CD, level := 0x32, levelInBox := 0x32, statusCondition := 0x08,
    type1 := 0x14, type2 := 0x02, catchRateOrHeldItem := 0x2D, move1 := 0x21, move2 := 0x2D,
    move3 := 0x49, move4 := 0x16, pp1 := 0x23, pp2 := 0x68, pp3 := 0x8A, pp4 := 0xFF,
    otId := 0xBEEF, expPoints := 0x123456, hpEv := 0x1111, attackEv := 0x2222, defenseEv := 0x3333,
    speedEv := 0x4444, specialEv := 0xFFFF, ivData := 0xA5C3 }

/-- The bytes of V3 under `LAYOUT_LIST`. -/
def richList : List Byte :=
  [0x99, 0x23, 0x01, 0x45, 0x01, 0x67, 0x00, 0x89, 0x00, 0xAB, 0x00, 0xCD, 0x00, 0x32, 0x32, 0x08] ++
  [0x14, 0x02, 0x2D, 0x21, 0x2D, 0x49, 0x16, 0x23, 0x68, 0x8A, 0xFF, 0xEF, 0xBE, 0x56, 0x34, 0x12] ++
  [0x11, 0x11, 0x22, 0x22, 0x33, 0x33, 0x44, 0x44, 0xFF, 0xFF, 0xC3, 0xA5]

/-- The bytes of V3 under `LAYOUT_GEN1`. -/
def richGen1 : List Byte :=
  [0x99, 0x23, 0x01, 0x32, 0x08, 0x14, 0x02, 0x2D, 0x21, 0x2D, 0x49, 0x16, 0xEF, 0xBE, 0x56, 0x34] ++
  [0x12, 0x11, 0x11, 0x22, 0x22, 0x33, 0x33, 0x44, 0x44, 0xFF, 0xFF, 0xC3, 0xA5, 0x23, 0x68, 0x8A] ++
  [0xFF, 0x32, 0x45, 0x01, 0x67, 0x00, 0x89, 0x00, 0xAB, 0x00, 0xCD, 0x00]

/-- The counting block of V4. -/
def counting : List Byte := (List.range 44).map (BitVec.ofNat 8)

/-- The Magikarp record of V1 with the names of V2. -/
def v1 : PartyRecord := buildL1 magikarp rp2040 0x1234

/-! ### Well-formedness refuses ill-formed terms -/

theorem test_wf_nop_is_no_command : Instr.wf (.cmdNop 0x74) = false := by decide
theorem test_wf_le16_offset : Instr.wf (.le16Get [1, 2] 1) = false := by decide
theorem test_wf_exp_offset : Instr.wf (.expPut [1, 2, 3] 1 0) = false := by decide
theorem test_wf_field_value : Instr.wf (.fieldPut counting .level 256) = false := by decide
theorem test_wf_core_length : Instr.wf (.fieldGet (counting ++ [0]) .level) = false := by decide
theorem test_wf_dec_core_length : Instr.wf (.decCore v2) = false := by decide
theorem test_wf_record_name : Instr.wf (.encSlot { v1 with otName := rp2040 }) = false := by decide
theorem test_wf_trailer_length : Instr.wf (.decTrailer counting) = false := by decide
theorem test_wf_content_length : Instr.wf (.content rp2040) = false := by decide
theorem test_wf_slot_length : Instr.wf (.metaOut counting) = false := by decide
theorem test_wf_name_source : Instr.wf (.fieldOtName counting) = false := by decide

/-! ### Decoding of words written out from the spec's encodings -/

/-- R81: 0b01110100 is `CMD_TRADE`, 0b01101000 is `CMD_HELP`, `'T'` 0x54 is `CMD_NOP`. -/
theorem test_decode_commands :
    decode .idle (.host [0b01110100]) = .ok .cmdTrade ∧ decode .complete (.host [0b01101000]) = .ok .cmdHelp ∧
    decode .failed (.host [0x54]) = .ok (.cmdNop 0x54) := by decide

/-- R225: while busy the same byte is `CMD_WHILE_BUSY`. -/
theorem test_decode_busy : decode .record (.host [0x74]) = .ok (.cmdWhileBusy 0x74) := by decide

/-- R96: one received byte, decoded by phase. -/
theorem test_decode_wire :
    decode .hsMode (.answer (.byte 0x60)) = .ok (.hsMode 0x60) ∧
    decode .hsMaster (.answer (.byte 0x60)) = .ok (.hsMaster 0x60) ∧
    decode .hsVersion (.answer (.byte 0x60)) = .ok (.hsVersion 0x60) ∧
    decode .entropy (.answer (.byte 0x60)) = .ok (.entropy 0x60) ∧
    decode .metadata (.answer (.byte 0x60)) = .ok (.metadata 0x60) ∧
    decode .select (.answer (.byte 0x60)) = .ok (.select 0x60) ∧
    decode .record (.answer (.byte 0x60)) = .ok (.record 0x60) ∧
    decode .confirm (.answer (.byte 0x60)) = .ok (.confirm 0x60) ∧
    decode .record (.answer .timeout) = .ok .timeoutAny ∧
    decode .idle (.answer (.byte 0x60)) = .error .noExchangePending := by decide

/-- R84: `uucccccc` = 0b11_101000 is 3 PP Ups and 40 PP; R85: `aaaaddddsssscccc` = 0xA5C3. -/
theorem test_decode_packed :
    decode .idle (.call 31 [.num 0b11101000]) = .ok (.ppPack 3 40) ∧
    decode .idle (.call 35 [.num 0b1010010111000011]) = .ok (.ivPack 10 5 12 3) := by decide

/-- R121: a value that does not fit is refused, not wrapped. -/
theorem test_decode_width :
    decode .idle (.call 31 [.num 256]) = .error .operandIllTyped ∧
    decode .idle (.call 20 [.bytes counting, .field .level, .num 256]) = .error .operandIllTyped ∧
    decode .idle (.call 69 []) = .error .unknownRow ∧ decode .idle (.host []) = .error .commandLength := by decide

/-- Rows 13, 14 and 19 of the table. -/
theorem test_decode_calls :
    decode .idle (.call 13 [.num 1, .num 2, .num 3, .num 4, .num 8192]) = .ok (.configure ⟨1, 2, 3, 4, 8192⟩) ∧
    decode .record (.call 14 [.num 0x81, .answer (.byte 0x99)]) = .ok (.xchg 0x81 (.byte 0x99)) ∧
    decode .idle (.call 19 [.bytes counting, .field .otId]) = .ok (.fieldGet counting .otId) ∧
    decode .idle (.call 65 [.bytes counting]) = .ok (.fieldSpecialEv counting) := by decide

theorem test_table_words :
    decodeTableWord 8 0x74 = some .cmdTrade ∧ decodeTableWord 8 0x68 = some .cmdHelp ∧
    decodeTableWord 8 0x00 = some (.cmdNop 0) ∧ decodeTableWord 16 0x74 = none := by decide

theorem test_fetch_word :
    after (step (State.reset.withFetchWord 8 0x74)) (fun t => (t.st, t.inputs)) = some (.hsMode, []) := by decide

/-! ### Word serializers (V20 to V31) -/

theorem test_le16 :
    after (exec (.le16Put [0, 0, 9] 0 0x1234) blank) State.datapath = some (some (.bytes [0x34, 0x12, 9])) ∧
    after (exec (.le16Get [0x34, 0x12] 0) blank) State.datapath = some (some (.bits 16 0x1234)) := by decide

theorem test_exp :
    after (exec (.expPut [0, 0, 0, 9] 0 0x123456) blank) State.datapath = some (some (.bytes [0x56, 0x34, 0x12, 9])) ∧
    after (exec (.expGet [0x00, 0x00, 0x80] 0) blank) State.datapath = some (some (.bits 24 0x800000)) := by decide

theorem test_le16_refused : exec (.le16Get [0x34] 0) blank = .refused .operandIllTyped := by rfl

/-! ### The core block (V1, V3, V4, V6) -/

theorem test_enc_core_magikarp :
    after (exec (.encCore v1) blank) State.datapath = some (some (.bytes (v2.take 44))) := by decide

theorem test_enc_core_rich : encCore layoutList rich = richList ∧ encCore layoutGen1 rich = richGen1 := by decide

theorem test_dec_core_rich :
    after (exec (.decCore richList) blank) State.datapath = some (some (.core rich)) ∧
    decCore layoutGen1 richGen1 = rich := by decide

theorem test_layouts_valid : layoutList.valid = true ∧ layoutGen1.valid = true := by decide

/-- V4, row by row. -/
theorem test_fields_bytes :
    [Instr.fieldSpeciesId counting, .fieldLevel counting, .fieldLevelInBox counting, .fieldStatusCondition counting,
     .fieldType1 counting, .fieldType2 counting, .fieldCatchRateOrHeldItem counting, .fieldMove1 counting,
     .fieldMove2 counting, .fieldMove3 counting, .fieldMove4 counting, .fieldPp1 counting, .fieldPp2 counting,
     .fieldPp3 counting, .fieldPp4 counting].map (fun i => after (exec i blank) State.datapath) =
    [0x00, 0x0D, 0x0E, 0x0F, 0x10, 0x11, 0x12, 0x13, 0x14, 0x15, 0x16, 0x17, 0x18, 0x19, 0x1A].map
      (fun v => some (some (Value.bits 8 v))) := by decide

theorem test_fields_words :
    [Instr.fieldCurrentHp counting, .fieldMaxHp counting, .fieldAttack counting, .fieldDefense counting,
     .fieldSpeed counting, .fieldSpecial counting, .fieldOtId counting, .fieldHpEv counting, .fieldAttackEv counting,
     .fieldDefenseEv counting, .fieldSpeedEv counting, .fieldSpecialEv counting, .fieldIvData counting].map
      (fun i => after (exec i blank) State.datapath) =
    [0x0201, 0x0403, 0x0605, 0x0807, 0x0A09, 0x0C0B, 0x1C1B, 0x2120, 0x2322, 0x2524, 0x2726, 0x2928, 0x2B2A].map
      (fun v => some (some (Value.bits 16 v))) := by decide

theorem test_field_exp :
    after (exec (.fieldExpPoints counting) blank) State.datapath = some (some (.bits 24 0x1F1E1D)) := by decide

theorem test_field_names :
    after (exec (.fieldNickname v2) blank) State.datapath = some (some (.bytes (List.replicate 11 0x50))) ∧
    after (exec (.fieldOtName (v2.drop 44)) blank) State.datapath =
      some (some (.bytes [0x52, 0x50, 0x32, 0x30, 0x34, 0x30, 0x50])) := by decide

theorem test_field_put :
    after (exec (.fieldPut counting .otId 0xBEEF) blank) State.datapath =
      some (some (.bytes ((counting.set 27 0xEF).set 28 0xBE))) ∧
    after (exec (.fieldGet v2 .otId) blank) State.datapath = some (some (.bits 16 0x1234)) := by decide

/-! ### Packed sub-fields (V40 to V68) -/

theorem test_pp :
    after (exec (.ppPack 1 40) blank) State.datapath = some (some (.bits 8 0x68)) ∧
    after (exec (.ppGetCur 0x40) blank) State.datapath = some (some (.bits 6 0)) ∧
    after (exec (.ppGetUps 0x40) blank) State.datapath = some (some (.bits 2 1)) := by decide

theorem test_iv :
    after (exec (.ivPack 10 5 12 3) blank) State.datapath = some (some (.bits 16 0xA5C3)) ∧
    [IvName.attack, .defense, .speed, .special].map (fun n => after (exec (.ivGet n 0xA5C3) blank) State.datapath) =
      [10, 5, 12, 3].map (fun v => some (some (Value.bits 4 v))) := by decide

theorem test_iv_hp :
    [0xA5C3, 0x1000, 0x0100, 0x0010, 0x0001, 0xEEEE].map (fun w => after (exec (.ivHp w) blank) State.datapath) =
      [5, 8, 4, 2, 1, 0].map (fun v => some (some (Value.bits 4 v))) := by decide

/-! ### Names, trailer, slot, builder, metadata (V2, V7 to V19, V70 to V73) -/

theorem test_pad_string :
    after (exec (.padString [0x41, 0x42, 0x43, 0x44, 0x45, 0x46, 0x47] .otName) blank) State.datapath =
      some (some (.bytes [0x41, 0x42, 0x43, 0x44, 0x45, 0x46, 0x50])) ∧
    padString [0x00, 0x50, 0x41] 7 = [0x00, 0x50, 0x41, 0x50, 0x50, 0x50, 0x50] := by decide

theorem test_content :
    after (exec (.content [0x52, 0x50, 0x32, 0x30, 0x34, 0x30, 0x50]) blank) State.datapath = some (some (.bytes [0x52])) ∧
    content (List.replicate 7 0) = List.replicate 7 0 := by decide

theorem test_set_name :
    after (exec (.setName v1 .otName [0x80, 0x81, 0x82]) blank) State.datapath =
      some (some (.record { v1 with otName := [0x80, 0x81, 0x82, 0x50, 0x50, 0x50, 0x50] })) := by decide

theorem test_trailer :
    after (exec (.encTrailer v1) blank) State.datapath = some (some (.bytes (v2.drop 44))) ∧
    after (exec (.decTrailer (v2.drop 44)) blank) State.datapath =
      some (some (.names (List.replicate 11 0x50) [0x52, 0x50, 0x32, 0x30, 0x34, 0x30, 0x50])) := by decide

theorem test_slot :
    after (exec (.encSlot v1) blank) State.datapath = some (some (.bytes v2)) ∧
    after (exec (.decSlot v2) blank) State.datapath = some (some (.record v1)) := by decide

theorem test_build :
    after (exec (.buildL1 magikarp [0x41, 0x42, 0x43, 0x44, 0x45, 0x46, 0x47, 0x48, 0x49] 0xFFFF) blank) State.datapath =
      some (some (.record { v1 with
        core := { v1.core with otId := 0xFFFF }, otName := [0x41, 0x42, 0x43, 0x44, 0x45, 0x46, 0x50] })) := by decide

theorem test_meta_out :
    after (exec (.metaOut v2) blank) State.datapath =
      some (some (.bytes ([0x52, 0x50, 0x32, 0x30, 0x34, 0x30, 0x50, 0x01, 0x81] ++ List.replicate 11 0x50 ++
        [0x52, 0x50, 0x32, 0x30, 0x34, 0x30, 0x50]))) := by decide

/-! ### Commands (V80 to V87) -/

theorem test_cmd_trade :
    after (exec .cmdTrade { at_ .failed 17 1 with err := .linkTimeout, rcv := [(0, 0x99)], out := [] })
      (fun t => (regs t, t.rcv, t.out.slot)) = some ((.hsMode, 0, 0, .none), [], v2) := by decide

theorem test_cmd_help :
    after (exec .cmdHelp { at_ .failed 17 0 with err := .linkTimeout }) (fun t => (regs t, t.reports)) =
      some ((.failed, 17, 0, .linkTimeout), [.help [0x74, 0x68]]) := by decide

theorem test_cmd_nop : exec (.cmdNop 0x54) blank = .next blank := by rfl

theorem test_cmd_while_busy :
    after (exec (.cmdWhileBusy 0x74) (at_ .record 5 0)) (fun t => (regs t, t.held)) =
      some ((.record, 5, 0, .none), [0x74]) ∧
    after (exec (.cmdWhileBusy 0x74) { at_ .record 5 0 with params := { t0 with busyPolicy := .drop } })
      (fun t => (regs t, t.held)) = some ((.record, 5, 0, .none), []) := by decide

/-! ### Engine steps (V100 to V130) -/

theorem test_hs_mode_match :
    after (exec (.hsMode 0x60) (at_ .hsMode 0 2)) (fun t => (regs t, sent t)) =
      some ((.hsMaster, 0, 0, .none), [0x60]) := by decide

theorem test_hs_mode_exhausted :
    after (exec (.hsMode 0x61) (at_ .hsMode 0 2)) (fun t => (regs t, t.reports)) =
      some ((.failed, 0, 2, .handshakeMismatch), [.result .failed .handshakeMismatch (List.replicate 62 0)]) := by decide

theorem test_hs_master :
    after (exec (.hsMaster 0x02) (at_ .hsMaster 0 0)) regs = some (.hsMaster, 0, 1, .none) ∧
    after (exec (.hsMaster 0x01) (at_ .hsMaster 0 0)) regs = some (.hsVersion, 0, 0, .none) := by decide

theorem test_hs_version :
    after (exec (.hsVersion 0x10) (at_ .hsVersion 0 0)) regs = some (.entropy, 0, 0, .none) ∧
    after (exec (.hsVersion 0x11) (at_ .hsVersion 0 2)) regs = some (.failed, 0, 2, .handshakeMismatch) := by decide

theorem test_entropy :
    after (exec (.entropy 0x11) { at_ .entropy 0 0 with draws := [0xAA, 0xBB] }) (fun t => (regs t, sent t, t.draws)) =
      some ((.entropy, 1, 0, .none), [0xAA], [0xBB]) ∧
    after (exec (.entropy 0x33) { at_ .entropy 2 0 with draws := [0xCC] }) regs = some (.metadata, 0, 0, .none) := by decide

theorem test_metadata_unwired :
    after (exec (.metadata 0xD0) (at_ .metadata 9 0)) (fun t => (regs t, sent t, t.rcv)) =
      some ((.metadata, 10, 0, .none), [0x50], []) := by decide

theorem test_metadata_wired :
    after (exec (.metadata 0x50) (wired (at_ .metadata 26 0))) (fun t => (regs t, t.rcv)) =
      some ((.select, 0, 0, .none), [(61, 0x50)]) := by decide

theorem test_select :
    after (exec (.select 0x70) (at_ .select 0 0)) regs = some (.record, 0, 0, .none) ∧
    after (exec (.select 0x6F) (at_ .select 0 0)) regs = some (.failed, 0, 0, .malformedSelection) := by decide

theorem test_record_store :
    after (exec (.record 0xEF) (at_ .record 27 0)) (fun t => (regs t, sent t, t.rcv)) =
      some ((.record, 28, 0, .none), [0x34], [(27, 0xEF)]) := by decide

theorem test_record_last :
    after (exec (.record 0xA5) (at_ .record 43 0)) (fun t => (regs t, t.rcv)) =
      some ((.confirm, 0, 0, .none), [(43, 0xA5)]) := by decide

theorem test_confirm :
    after (exec (.confirm 0x7F) (at_ .confirm 0 0)) (fun t => (regs t, t.reports)) =
      some ((.complete, 0, 0, .none), [.result .complete .none (List.replicate 62 0)]) ∧
    after (exec (.confirm 0x7E) (at_ .confirm 0 0)) regs = some (.failed, 0, 0, .confirmMismatch) := by decide

theorem test_timeout :
    after (exec .timeoutAny { at_ .record 17 0 with rcv := [(0, 0x99)] }) (fun t => (regs t, sent t, t.rcv)) =
      some ((.failed, 17, 0, .linkTimeout), [0x15], [(0, 0x99)]) ∧
    exec .timeoutAny blank = .refused .noTransition := by
  constructor
  · decide
  · rfl

theorem test_record_in_idle : exec (.record 0x99) blank = .refused .noTransition := by rfl

/-! ### Transport (spec/95_test_vectors.md 2.8) -/

theorem test_configure :
    exec (.configure ⟨0, 2, 3, 4, 8192⟩) blank = .next { blank with link := some ⟨0, 2, 3, 4, 8192⟩ } ∧
    exec (.configure ⟨0, 2, 3, 4, 8192⟩) (at_ .record 0 0) = .refused .configureWhileBusy := by
  constructor <;> rfl

theorem test_xchg :
    after (exec (.xchg 0x81 (.byte 0x99)) (at_ .record 0 0)) (fun t => (regs t, t.rcv)) =
      some ((.record, 1, 0, .none), [(0, 0x99)]) ∧
    exec (.xchg 0x82 (.byte 0x99)) (at_ .record 0 0) = .refused .exchangeNotIssued := by
  constructor
  · decide
  · rfl

/-! ### The step and the loopback -/

/-- R225 `Hold`: a byte held during the attempt is accepted after it. -/
theorem test_step_held :
    after (step { at_ .complete 0 0 with held := [0x74], inputs := [.answer .timeout] }) (fun t => (t.st, t.held, t.inputs)) =
      some (.hsMode, [], [.answer .timeout]) := by decide

theorem test_step_reset :
    after (step { at_ .record 5 0 with rcv := [(0, 1)], inputs := [.reset] }) (fun t => (regs t, t.rcv, t.reports)) =
      some ((.idle, 0, 0, .none), [], []) := by decide

/-- What a step of the composition shows. -/
def afterPair {α : Type} (o : Host.Outcome Pair Fault Refusal) (f : Pair → α) : Option α :=
  match o with
  | .next p => some (f p)
  | .fault _ => none
  | .refused _ => none

/-- Program P1, exchange 62, one side each. -/
theorem test_loopback_exchange :
    afterPair (Pair.step (.link .clean) ⟨at_ .record 27 0, { at_ .record 27 0 with out := [(27, 0xEF)] }⟩)
      (fun p => (p.a.rcv, p.b.rcv)) = some ([(27, 0xEF)], [(27, 0x34)]) := by decide

/-- R166(c): while B is in `IDLE` with a `'t'` to come, A waits or times out, as the link decides. -/
theorem test_loopback_waits :
    afterPair (Pair.step (.link .clean) ⟨at_ .hsMode 0 0, { blank with inputs := [.host [0x74]] }⟩)
      (fun p => (regs p.a, p.a.wire)) = some ((.hsMode, 0, 0, .none), []) ∧
    afterPair (Pair.step (.link ⟨none, none, false⟩) ⟨at_ .hsMode 0 0, { blank with inputs := [.host [0x74]] }⟩)
      (fun p => regs p.a) = some (.failed, 0, 0, .linkTimeout) := by decide

/-- R251: B is started by its own host's `'t'`, which ends A's wait. -/
theorem test_loopback_start :
    afterPair (Pair.step .ownB ⟨at_ .hsMode 0 0, { blank with inputs := [.host [0x74]] }⟩)
      (fun p => (p.a.st, p.b.st, p.b.inputs)) = some (.hsMode, .hsMode, []) := by decide

/-- R271: B, whose peer is reset in mid-attempt, times out, though A has a `'t'` to come. -/
theorem test_loopback_reset :
    afterPair (Pair.run [.ownA, .link .clean]
        ⟨{ at_ .record 5 0 with inputs := [.reset, .host [0x74]] }, at_ .record 5 0⟩)
      (fun p => (p.a.st, p.a.reports.length, p.b.st, p.b.err)) = some (.idle, 0, .failed, .linkTimeout) := by decide

end Sys2Proof.Tests
end

