-- ==== Sys2Proof/Tests/Witnesses.lean ====
section
/-! SUPPORT. Witnesses: for every obligation with hypotheses, concrete states and operands that meet all of
them together, at the boundary values of its clauses. -/

namespace Sys2Proof.Tests
open Sys2Proof.Machine

/-! ### States that meet the invariant -/

/-- A block in an attempt that has received nothing yet meets the invariant. -/
theorem inv_of {s : State} (hl : s.params.layout = layoutList) (hn : 1 ≤ s.params.nEntropy) (ho : s.out.wf = true)
    (hv : s.rcv = []) (hp : s.PositionOk) (hr : s.retry ≤ s.params.retryBudget) (he : s.err = .none)
    (hs : s.st ≠ .failed) : s.Inv where
  params := ⟨by rw [hl]; decide, hn⟩
  out := ho
  rcv := by rw [hv]; rfl
  position := hp
  retry := hr
  err := ⟨fun _ => hs, fun _ => he⟩
  untouched := fun _ _ => by rw [hv]; rfl

theorem wf_v2 : (Memory.ofBytes v2).wf = true := by decide

/-- A block of T0 with `OUT` = V2, in a busy phase at a position inside it. -/
theorem inv_at {st : Phase} {idx retry : Nat} (hp : (at_ st idx retry).PositionOk) (hr : retry ≤ 2)
    (hs : st ≠ .failed) : (at_ st idx retry).Inv :=
  inv_of rfl (show 1 ≤ t0.nEntropy by decide) wf_v2 rfl hp hr rfl hs

theorem inv_wired {s : State} (h : s.Inv) (hv : s.rcv = []) : (wired s).Inv where
  params := h.params
  out := h.out
  rcv := h.rcv
  position := ⟨h.position.entropy, h.position.metadata, h.position.record, h.position.bound⟩
  retry := h.retry
  err := h.err
  untouched := fun _ _ => by show s.rcv.read _ = _; rw [hv]; rfl

/-- The start of an attempt, with what the environment offers. -/
def begun (answers : List Answer) : State := { at_ .hsMode 0 0 with inputs := answers.map Input.answer }

theorem inv_begun (answers : List Answer) : (begun answers).Inv :=
  inv_of rfl (show 1 ≤ t0.nEntropy by decide) wf_v2 rfl ⟨nofun, nofun, nofun, Nat.zero_le _⟩ (Nat.zero_le _) rfl nofun

/-- The record with every core field at its maximum. -/
def fullRecord : PartyRecord := { v1 with core := CoreRecord.ofVal fun f => 2 ^ f.width - 1 }

/-- The record with every core field zero. -/
def zeroRecord : PartyRecord := { v1 with core := CoreRecord.ofVal fun _ => 0 }

/-! ### The codec -/

theorem witness_Le16Get : 0 + 1 < [(0x34 : Byte), 0x12].length ∧ 42 + 1 < counting.length := by decide
theorem witness_Le16Put : 0 + 1 < [(0 : Byte), 0].length ∧ 42 + 1 < counting.length := by decide
theorem witness_ExpGet : 0 + 2 < [(0x56 : Byte), 0x34, 0x12].length ∧ 41 + 2 < counting.length := by decide
theorem witness_ExpPut : 0 + 2 < [(0 : Byte), 0, 0].length ∧ 41 + 2 < counting.length := by decide

theorem witness_FieldAccessors :
    blank.params.layout.valid = true ∧ counting.length = 44 ∧ v2.length = 62 ∧
    255 < 2 ^ CoreField.width .level ∧ 65535 < 2 ^ CoreField.width .ivData ∧ 16777215 < 2 ^ CoreField.width .expPoints ∧
    1 < CoreField.bytes .ivData ∧ layoutList.off .ivData + CoreField.bytes .ivData ≤ 44 ∧
    0 < layoutList.off .currentHp ∧ CoreField.level ≠ .ivData := by decide

theorem witness_EncCore :
    blank.params.layout.valid = true ∧ v1.wf = true ∧
    zeroRecord.wf = true ∧ (∀ f, zeroRecord.core.val f = 0) ∧
    fullRecord.wf = true ∧ (∀ f, fullRecord.core.val f = 2 ^ f.width - 1) := by
  refine ⟨by decide, by decide, by decide, ?_, by decide, ?_⟩ <;> (intro f; cases f <;> rfl)

theorem witness_DecCore : richList.length = 44 ∧ (List.replicate 44 (0 : Byte)).length = 44 := by decide
theorem witness_CoreCodec :
    blank.params.layout.valid = true ∧ v1.wf = true ∧ richList.length = 44 ∧ v1.core = v1.core := by decide
theorem witness_PadString :
    (NameField.nickname, 11) ∈ [(NameField.nickname, 11), (.otName, 7)] ∧
    (NameField.otName, 7) ∈ [(NameField.nickname, 11), (.otName, 7)] ∧ 6 < min rp2040.length (7 - 1) + 1 := by decide
theorem witness_Content :
    (v2.drop 55).length = 7 ∧ (v2.take 11).length = 11 ∧
    (NameField.otName, 7) ∈ [(NameField.nickname, 11), (.otName, 7)] ∧ [(0x52 : Byte)].length ≤ 7 - 1 ∧
    (∀ x ∈ [(0x52 : Byte)], x ≠ 0x50) ∧ [(0x50 : Byte), 0x32].head? = some 0x50 := by decide
theorem witness_Trailer :
    v1.wf = true ∧ (v2.drop 44).length = 18 ∧ v1.nickname = (v2.drop 44).take 11 ∧ v1.otName = (v2.drop 44).drop 11 := by
  decide
theorem witness_Slot : blank.params.layout.valid = true ∧ v1.wf = true ∧ v2.length = 62 := by decide
theorem witness_MetadataStream : v2.length = 62 := by decide
theorem witness_FieldRows : [CoreField.speciesId.row counting, CoreField.ivData.row v2].all (·.wf) = true ∧ blank.params.layout = layoutList ∧ counting.length = 44 ∧ v2.length = 62 := by decide
theorem witness_NameFieldRows : (v2.drop 44).length = 18 ∧ v2.length = 62 := by decide
theorem witness_CodecTotal :
    [Instr.le16Get v2 60, .expPut v2 59 0, .fieldGet counting .ivData, .fieldPut v2 .level 255, .encCore v1,
     .decCore counting, .padString [] .otName, .setName v1 .otName rp2040, .content (v2.drop 55), .decSlot v2,
     .buildL1 magikarp rp2040 0, .metaOut v2, .fieldSpecialEv v2, .fieldOtName v2].all
      (fun i => i.isCodec && i.wf) = true := by decide
theorem witness_CodecRefuses :
    [Instr.le16Get v2 61, .expPut v2 60 0, .fieldGet (v2.drop 1) .ivData, .fieldPut v2 .level 256,
     .encCore { v1 with otName := rp2040 }, .decCore v2, .content rp2040, .decSlot counting, .metaOut counting,
     .fieldSpecialEv (v2.drop 1), .fieldOtName counting].all (fun i => i.isCodec && !i.wf) = true := by decide

/-! ### The engine -/

theorem witness_Handshake :
    (at_ .hsMode 0 0).st = .hsMode ∧ (at_ .hsMaster 0 1).st = .hsMaster ∧ (at_ .hsVersion 0 2).st = .hsVersion ∧
    (0x60 : Byte) = t0.modeCode ∧ (0x61 : Byte) ≠ t0.modeCode ∧ 1 < t0.retryBudget ∧ ¬ 2 < t0.retryBudget := by decide
theorem witness_Entropy :
    (at_ .entropy 0 0).st = .entropy ∧ (at_ .entropy 0 0).idx < t0.nEntropy ∧
    (at_ .entropy 2 0).idx < t0.nEntropy ∧ (at_ .entropy 2 0).idx + 1 = t0.nEntropy ∧
    { at_ .entropy 0 0 with draws := [0xAA] }.draws.head? = some 0xAA := by decide
theorem inv_metadata {idx : Nat} (h : idx < 27) : (at_ .metadata idx 0).Inv :=
  inv_at ⟨nofun, fun _ => h, nofun, by show idx ≤ 43; omega⟩ (Nat.zero_le _) nofun
theorem inv_record {idx : Nat} (h : idx < 44) : (at_ .record idx 0).Inv :=
  inv_at ⟨nofun, nofun, fun _ => h, by show idx ≤ 43; omega⟩ (Nat.zero_le _) nofun
theorem witness_Metadata :
    (at_ .metadata 6 0).Inv ∧ (at_ .metadata 7 0).Inv ∧ (at_ .metadata 8 0).Inv ∧
    (wired (at_ .metadata 9 0)).Inv ∧ (wired (at_ .metadata 26 0)).Inv ∧ (at_ .metadata 26 0).st = .metadata :=
  ⟨inv_metadata (by decide), inv_metadata (by decide), inv_metadata (by decide),
    inv_wired (inv_metadata (by decide)) rfl, inv_wired (inv_metadata (by decide)) rfl, rfl⟩
theorem witness_Select :
    (at_ .select 0 0).st = .select ∧ ((0x70 : Byte).toNat + 256 - t0.selBase.toNat) % 256 < 1 ∧
    ¬ ((0x6F : Byte).toNat + 256 - t0.selBase.toNat) % 256 < 1 := by decide
theorem witness_Record : (at_ .record 0 0).Inv ∧ (at_ .record 43 0).Inv ∧ (at_ .record 43 0).st = .record :=
  ⟨inv_record (by decide), inv_record (by decide), rfl⟩
theorem witness_Confirm :
    (at_ .confirm 0 0).st = .confirm ∧ (0x7F : Byte) = t0.ackCode ∧ (0x7E : Byte) ≠ t0.ackCode := by decide
theorem witness_Timeout :
    (at_ .hsMode 0 0).st.busy = true ∧ (at_ .entropy 2 0).st.busy = true ∧ (at_ .confirm 0 0).st.busy = true := by decide
theorem witness_OutsideTable :
    blank.st ≠ .hsMode ∧ blank.st ≠ .hsMaster ∧ blank.st ≠ .hsVersion ∧ blank.st ≠ .select ∧ blank.st ≠ .confirm ∧
    t0.nEntropy ≤ (at_ .entropy 3 0).idx ∧ 27 ≤ (at_ .metadata 27 0).idx ∧ 44 ≤ (at_ .record 44 0).idx ∧
    blank.st.busy = false ∧ blank.held = [] ∧
    { blank with inputs := [.answer .timeout] }.inputs = .answer .timeout :: [] := by decide
theorem witness_WireBytes :
    { at_ .entropy 0 0 with draws := [0xAA] }.draws.head? = some 0xAA ∧
    (exec (.metaOut (at_ .metadata 0 0).out.slot) (at_ .metadata 0 0) =
      .next ((at_ .metadata 0 0).showing (.bytes (metaOut layoutList (at_ .metadata 0 0).out.slot)))) ∧
    (at_ .idle 0 0).st = .idle ∧ (at_ .complete 0 0).st = .complete ∧ (at_ .failed 0 0).st = .failed := by
  refine ⟨by decide, ?_, rfl, rfl, rfl⟩
  simp [exec, execMetaOut, State.compute, Memory.slot, Memory.bytes, State.putResult, State.showing, at_, blank, t0]
theorem witness_Exchange :
    (at_ .record 0 0).tx = some 0x81 ∧ (at_ .record 0 0).Inv ∧ (at_ .record 0 0).tx ≠ some 0x82 ∧
    (at_ .confirm 0 0).tx = some 0x7F ∧ blank.tx ≠ some 0x00 :=
  ⟨by decide, inv_record (by decide), by decide, by decide, by decide⟩

/-! ### Transport and commands -/

theorem witness_Configure : blank.st.busy = false ∧ (at_ .record 0 0).st.busy = true := by decide
theorem witness_LinkConfiguration :
    (∃ t, exec (.configure ⟨0, 2, 3, 4, 8192⟩) blank = .next t) ∧ (∃ t, exec (.select 0x70) (at_ .select 0 0) = .next t) ∧
    (∀ c, Instr.select 0x70 ≠ .configure c) := ⟨⟨_, rfl⟩, ⟨_, rfl⟩, nofun⟩
theorem witness_Trade :
    blank.st.busy = false ∧ (at_ .complete 0 0).st.busy = false ∧ (at_ .failed 43 2).st.busy = false := by decide
theorem witness_Help : blank.st.busy = false ∧ (at_ .failed 17 0).st.busy = false := by decide
theorem witness_Nop :
    blank.st.busy = false ∧ (0x54 : Byte) ≠ 0x74 ∧ (0x54 : Byte) ≠ 0x68 ∧ (0x73 : Byte) ≠ 0x74 ∧ (0x73 : Byte) ≠ 0x68 := by
  decide
theorem witness_BusyCommand :
    (at_ .record 5 0).st.busy = true ∧ (at_ .record 5 0).params.busyPolicy = .hold ∧
    { at_ .record 5 0 with params := { t0 with busyPolicy := .drop } }.params.busyPolicy = .drop ∧
    { at_ .complete 0 0 with held := [0x74, 0x68] }.st.busy = false ∧
    { at_ .complete 0 0 with held := [0x74, 0x68] }.held = 0x74 :: [0x68] ∧ (0x00 : Byte) ≠ 0x74 ∧ (0x00 : Byte) ≠ 0x68 := by
  decide
theorem witness_CommandByte : Phase.busy .idle = false ∧ Phase.busy .hsMode = true ∧ Phase.busy .confirm = true := by decide
theorem witness_NoByteIsIllegal : Phase.busy .select = true := by decide

/-! ### Encoding and the step -/

theorem witness_DecodeOfEncode :
    [(Instr.cmdTrade, Phase.idle), (.cmdNop 0x54, .failed), (.cmdWhileBusy 0x74, .hsMode), (.entropy 0xFF, .entropy),
     (.timeoutAny, .confirm), (.configure ⟨1, 2, 3, 4, 5⟩, .idle), (.xchg 0xFF .timeout, .record),
     (.fieldPut v2 .expPoints 16777215, .idle), (.ppPack 3 63, .idle), (.ivPack 15 15 15 15, .metadata),
     (.buildL1 magikarp rp2040 0xFFFF, .complete), (.fieldOtName v2, .record)].all
      (fun p => p.1.wf && p.1.selectedIn p.2) = true := by decide
theorem witness_EncodeOfDecode :
    decode .idle (.host [0x74]) = .ok .cmdTrade ∧ decode .record (.answer .timeout) = .ok .timeoutAny ∧
    decode .idle (.call 31 [.num 255]) = .ok (.ppPack 3 63) ∧ decode .idle (.call 68 [.bytes v2]) = .ok (.fieldOtName v2) := by
  decide
theorem witness_StepRuns :
    ({ at_ .complete 0 0 with held := [0x74], inputs := [.reset] }.pending =
      some (.host [0x74], { at_ .complete 0 0 with held := [], inputs := [.reset] })) ∧
    decode .complete (.host [0x74]) = .ok .cmdTrade ∧
    ({ at_ .record 5 0 with inputs := [.answer (.byte 1)] }.pending = some (.answer (.byte 1), at_ .record 5 0)) ∧
    decode .record (.answer (.byte 1)) = .ok (.record 1) ∧
    (at_ .record 5 0).pending = some (.answer (Config.freeAnswer 0), at_ .record 5 0) := by
  refine ⟨rfl, by decide, rfl, by decide, rfl⟩
theorem witness_Events :
    blank.st.busy = false ∧ blank.held = [] ∧ blank.inputs = [] ∧
    { at_ .record 5 0 with held := [0x74], inputs := [.reset] }.st.busy = true ∧
    { at_ .record 5 0 with held := [0x74], inputs := [.reset] }.inputs = .reset :: [] ∧
    { blank with inputs := [.config ⟨magikarp, [], 7⟩] }.inputs = .config ⟨magikarp, [], 7⟩ :: [] := by decide
theorem witness_FetchWord :
    decodeTableWord 8 0x74 = some .cmdTrade ∧ decodeTableWord 8 0xFF = some (.cmdNop 0xFF) := by decide
theorem witness_StepKeepsInv :
    ({ at_ .record 43 0 with inputs := [.answer (.byte 9)] }).Inv ∧
    ∃ t, step { at_ .record 43 0 with inputs := [.answer (.byte 9)] } = .next t :=
  ⟨inv_of rfl (by decide) wf_v2 rfl ⟨nofun, nofun, fun _ => by decide, by decide⟩ (by decide) rfl nofun, ⟨_, rfl⟩⟩
theorem witness_BusyBlock : (at_ .record 43 0).Inv ∧ (at_ .record 43 0).st.busy = true := ⟨inv_record (by decide), rfl⟩

/-! ### Rules of the whole machine -/

theorem witness_Position :
    (∃ t, exec (.record 1) (at_ .record 42 0) = .next t) ∧ (∃ t, exec (.record 1) (at_ .record 43 0) = .next t) ∧
    (∃ t, exec (.confirm 0) (at_ .confirm 0 0) = .next t) ∧ (∃ t, exec (.cmdNop 0x54) blank = .next t) ∧
    (∃ t, exec .cmdTrade (at_ .failed 17 0) = .next t) := ⟨⟨_, rfl⟩, ⟨_, rfl⟩, ⟨_, rfl⟩, ⟨_, rfl⟩, ⟨_, rfl⟩⟩
theorem witness_Slots :
    (at_ .record 43 0).rcv.wf = true ∧
    ((∃ t, exec (.record 0x99) (at_ .record 43 0) = .next t) ∧
      (at_ .record 43 0).received (.record 0x99) = some (43, 0x99)) ∧
    ((∃ t, exec (.metadata 0x99) (wired (at_ .metadata 26 0)) = .next t) ∧
      (wired (at_ .metadata 26 0)).received (.metadata 0x99) = some (61, 0x99)) ∧
    ((∃ t, exec (.metadata 0x99) (wired (at_ .metadata 8 0)) = .next t) ∧
      (wired (at_ .metadata 8 0)).received (.metadata 0x99) = none) ∧
    (∃ t, exec .cmdTrade { blank with out := [(0, 1)] } = .next t ∧ blank.st.busy = false) :=
  ⟨rfl, ⟨⟨_, rfl⟩, rfl⟩, ⟨⟨_, rfl⟩, rfl⟩, ⟨⟨_, rfl⟩, rfl⟩, ⟨_, rfl, rfl⟩⟩
theorem witness_Failures :
    (∃ t, exec .timeoutAny (at_ .record 17 0) = .next t ∧ t.st = .failed ∧ (at_ .record 17 0).st ≠ .failed) ∧
    (∃ t, exec (.hsMode 0) (at_ .hsMode 0 2) = .next t ∧ t.st = .failed ∧ (at_ .hsMode 0 2).st ≠ .failed) ∧
    (∃ t, exec (.select 0) (at_ .select 0 0) = .next t ∧ t.st = .failed ∧ (at_ .select 0 0).st ≠ .failed) :=
  ⟨⟨_, rfl, rfl, by decide⟩, ⟨_, rfl, rfl, by decide⟩, ⟨_, rfl, rfl, by decide⟩⟩
theorem witness_Reports :
    (∃ t, exec (.confirm 0x7F) (at_ .confirm 0 0) = .next t) ∧ (∃ t, exec .timeoutAny (at_ .record 17 0) = .next t) ∧
    (∃ t, exec .cmdHelp blank = .next t) ∧ (∃ t, exec (.record 1) (at_ .record 0 0) = .next t) ∧
    (∃ t, exec .cmdHelp (at_ .record 0 0) = .next t) := ⟨⟨_, rfl⟩, ⟨_, rfl⟩, ⟨_, rfl⟩, ⟨_, rfl⟩, ⟨_, rfl⟩⟩
theorem witness_FailedIsLeft :
    (at_ .failed 17 0).st = .failed ∧ (∃ t, exec .cmdTrade (at_ .failed 17 0) = .next t) ∧
    (∃ t, exec .cmdHelp (at_ .failed 17 0) = .next t) := ⟨rfl, ⟨_, rfl⟩, ⟨_, rfl⟩⟩
theorem witness_ConfigurationNotSeen :
    (at_ .record 0 0).st.busy = true ∧ ∃ t, exec (.record 1) (at_ .record 0 0) = .next t := ⟨rfl, ⟨_, rfl⟩⟩
theorem witness_AttemptsIndependent :
    (at_ .complete 0 0).st.busy = false ∧ (at_ .failed 17 2).st.busy = false ∧
    (at_ .complete 0 0).params = (at_ .failed 17 2).params ∧ (at_ .complete 0 0).config = (at_ .failed 17 2).config ∧
    (∃ t, exec .cmdTrade (at_ .complete 0 0) = .next t) ∧ (∃ t, exec .cmdTrade (at_ .failed 17 2) = .next t) :=
  ⟨rfl, rfl, rfl, rfl, ⟨_, rfl⟩, ⟨_, rfl⟩⟩
theorem witness_OperationsLeave :
    (∃ t, exec (.entropy 1) { at_ .entropy 0 0 with draws := [0xAA] } = .next t) ∧
    (∃ t, exec (.cmdWhileBusy 0x74) (at_ .record 0 0) = .next t) := ⟨⟨_, rfl⟩, ⟨_, rfl⟩⟩

/-! ### Attempts -/

theorem witness_CleanAttempt :
    (begun (recognised t0 [1, 2, 3] (List.replicate 27 0xD0) (List.replicate 44 0x99))).Inv ∧
    (begun []).st = .hsMode ∧ [(1 : Byte), 2, 3].length = t0.nEntropy ∧ (List.replicate 27 (0xD0 : Byte)).length = 27 ∧
    (List.replicate 44 (0x99 : Byte)).length = 44 ∧
    (begun (recognised t0 [1, 2, 3] (List.replicate 27 0xD0) (List.replicate 44 0x99))).inputs =
      (recognised t0 [1, 2, 3] (List.replicate 27 0xD0) (List.replicate 44 0x99)).map Input.answer ++ [] :=
  ⟨inv_begun _, rfl, rfl, rfl, rfl, (List.append_nil _).symm⟩
theorem witness_EveryAttemptEnds :
    (begun (List.replicate 85 (.byte 0x61))).Inv ∧ (begun (List.replicate 85 (.byte 0x61))).st = .hsMode ∧
    (begun (List.replicate 85 (.byte 0x61))).retry = 0 ∧
    76 + t0.nEntropy + 3 * t0.retryBudget ≤ (List.replicate 85 (Answer.byte 0x61)).length ∧
    (begun (List.replicate 85 (.byte 0x61))).inputs = (List.replicate 85 (Answer.byte 0x61)).map Input.answer ++ [] :=
  ⟨inv_begun _, rfl, rfl, by decide, (List.append_nil _).symm⟩
theorem witness_Loopback :
    (begun []).Inv ∧ (wired (begun [])).Inv ∧ (begun []).st = .hsMode ∧ (wired (begun [])).st = .hsMode ∧
    (begun []).params.modeCode = (wired (begun [])).params.modeCode ∧
    (begun []).params.masterCode = (wired (begun [])).params.masterCode ∧
    (begun []).params.versionCode = (wired (begun [])).params.versionCode ∧
    (begun []).params.ackCode = (wired (begun [])).params.ackCode ∧
    (begun []).params.selBase = (wired (begun [])).params.selBase ∧
    (begun []).params.nEntropy = (wired (begun [])).params.nEntropy ∧ (wired (begun [])).params.wireTrailer = true ∧
    ({ blank with inputs := [.host [0x74]] } : State).st = .idle ∧
    ({ blank with inputs := [.host [0x74]] } : State).held = [] :=
  ⟨inv_begun _, inv_wired (inv_begun _) rfl, rfl, rfl, rfl, rfl, rfl, rfl, rfl, rfl, rfl, rfl, rfl⟩
theorem witness_CorruptedHandshake :
    (at_ .confirm 0 0).st.busy = true ∧ (begun []).st.busy = true ∧ (at_ .confirm 0 0).held = [] ∧
    ({ at_ .confirm 0 0 with inputs := [.reset, .host [0x74]] } : State).inputs = [.reset, .host [0x74]] ∧
    (begun []).Inv ∧ (begun []).st = .hsMode ∧ (begun []).retry = 0 ∧ t0.masterCode ≠ t0.modeCode ∧
    (∀ e ∈ List.replicate 4 (LinkEvent.mk none (some 9) true), (∃ x, e.toB = some x ∧ x ≠ t0.modeCode) ∧ e.toA = none) ∧
    (List.replicate 4 (LinkEvent.mk none (some 9) true)).length = t0.retryBudget + 2 ∧
    (∀ e ∈ List.replicate 3 (LinkEvent.mk (some 8) (some 9) true), (∃ x, e.toB = some x ∧ x ≠ t0.modeCode) ∧
      ∃ x, e.toA = some x ∧ x ≠ t0.modeCode) ∧
    (List.replicate 3 (LinkEvent.mk (some 8) (some 9) true)).length = t0.retryBudget + 1 := by
  refine ⟨rfl, rfl, rfl, rfl, inv_begun _, rfl, rfl, by decide, ?_, by decide, ?_, by decide⟩
  · intro e he
    rw [List.eq_of_mem_replicate he]
    exact ⟨⟨9, rfl, by decide⟩, rfl⟩
  · intro e he
    rw [List.eq_of_mem_replicate he]
    exact ⟨⟨9, rfl, by decide⟩, ⟨8, rfl, by decide⟩⟩

end Sys2Proof.Tests
end

/-! Proofs of the scope statements (spec/00_scope.md): what a step runs. -/

namespace Sys2Proof.Machine

/-- The consumed input is decoded in the phase the block was in before it was consumed. -/
theorem State.pending_st {s u : State} {x : Input} (h : s.pending = some (x, u)) : u.st = s.st :=
  (congrArg State.st (State.pending_frame h) :)

/-- Settles O42: consuming keeps the phase, so the operation decoded before it is the one the step runs. -/
theorem stepRunsTheDecodedOperation : Obligations.StepRunsTheDecodedOperation := by
  intro s u x i hp hd
  have hd' : decode u.st x = .ok i := by rw [State.pending_st hp, hd]
  exact ⟨step_eq_exec hp hd', State.pending_frame hp⟩

end Sys2Proof.Machine

/-! Proofs of the state statements (spec/10_state.md): reset, the invariant, which operations move the
position and write the slots, and that the transport configuration is never read. -/

namespace Sys2Proof.Machine

/-! ### What the block itself holds -/

/-- The six pieces of state of R20, and the parameters, are the same in both. -/
structure State.SameBlock (s t : State) : Prop where
  out : t.out = s.out
  rcv : t.rcv = s.rcv
  st : t.st = s.st
  idx : t.idx = s.idx
  retry : t.retry = s.retry
  err : t.err = s.err
  params : t.params = s.params

theorem State.SameBlock.refl (s : State) : s.SameBlock s := ⟨rfl, rfl, rfl, rfl, rfl, rfl, rfl⟩

theorem State.sameBlock_putResult (v : Value) (s : State) : s.SameBlock (s.putResult v) :=
  ⟨rfl, rfl, rfl, rfl, rfl, rfl, rfl⟩

theorem State.sameBlock_link (l : Option LinkConfig) (s : State) : s.SameBlock { s with link := l } :=
  ⟨rfl, rfl, rfl, rfl, rfl, rfl, rfl⟩

theorem State.sameBlock_emit (r : Report) (s : State) : s.SameBlock (s.emit r) :=
  ⟨rfl, rfl, rfl, rfl, rfl, rfl, rfl⟩

theorem State.sameBlock_offerWhileBusy (b : Byte) (s : State) : s.SameBlock (s.offerWhileBusy b) := by
  constructor <;> simp

theorem State.sameBlock_exchanged (tx : Byte) (ans : Answer) (s : State) : s.SameBlock (s.exchanged tx ans) :=
  ⟨rfl, rfl, rfl, rfl, rfl, rfl, rfl⟩

/-- Consuming an input touches nothing of the block. -/
theorem State.sameBlock_pending {s u : State} {x : Input} (h : s.pending = some (x, u)) : s.SameBlock u := by
  rw [State.pending_frame h]
  exact ⟨rfl, rfl, rfl, rfl, rfl, rfl, rfl⟩

/-- The invariant speaks of the block alone. -/
theorem State.Inv.of_sameBlock {s t : State} (h : s.Inv) (e : s.SameBlock t) : t.Inv := by
  obtain ⟨out, rcv, st, idx, retry, err, params⟩ := e
  obtain ⟨hp, ho, hv, ⟨he, hm, hr, hb⟩, hret, herr, hu⟩ := h
  refine ⟨?_, ?_, ?_, ⟨?_, ?_, ?_, ?_⟩, ?_, ?_, ?_⟩
  all_goals simpa only [out, rcv, st, idx, retry, err, params, State.Untouched]

/-! ### The invariant -/

/-- A counter at 0 is inside every phase, as each phase has a byte to count. -/
theorem State.PositionOk.of_idx_zero {s : State} (hn : 1 ≤ s.params.nEntropy) (h : s.idx = 0) : s.PositionOk where
  entropy _ := by omega
  metadata _ := by rw [h]; decide
  record _ := by rw [h]; decide
  bound := by omega

/-- A counter below the length of a phase that counts. -/
theorem State.PositionOk.of_counting {s : State}
    (h : s.st = .entropy ∧ s.idx < s.params.nEntropy ∨ s.st = .metadata ∧ s.idx < metaLen ∨
      s.st = .record ∧ s.idx < coreLen) : s.PositionOk := by
  have hb : s.idx ≤ max (max (coreLen - 1) (metaLen - 1)) (s.params.nEntropy - 1) := by
    simp only [coreLen, metaLen] at h ⊢
    omega
  rcases h with ⟨hs, hi⟩ | ⟨hs, hi⟩ | ⟨hs, hi⟩
  · exact ⟨fun _ => hi, fun e => absurd (hs.symm.trans e) nofun, fun e => absurd (hs.symm.trans e) nofun, hb⟩
  · exact ⟨fun e => absurd (hs.symm.trans e) nofun, fun _ => hi, fun e => absurd (hs.symm.trans e) nofun, hb⟩
  · exact ⟨fun e => absurd (hs.symm.trans e) nofun, fun e => absurd (hs.symm.trans e) nofun, fun _ => hi, hb⟩

/-- A kept counter, in the same phase or in one that does not count. -/
theorem State.PositionOk.of_kept {s t : State} (h : s.PositionOk) (hi : t.idx = s.idx) (hp : t.params = s.params)
    (hs : t.st = s.st ∨ t.st ≠ .entropy ∧ t.st ≠ .metadata ∧ t.st ≠ .record) : t.PositionOk := by
  have hb : t.idx ≤ max (max (coreLen - 1) (metaLen - 1)) (t.params.nEntropy - 1) := by
    rw [hi, hp]
    exact h.bound
  rcases hs with hs | ⟨he, hm, hr⟩
  · refine ⟨?_, ?_, ?_, hb⟩ <;> rw [hs, hi]
    · rw [hp]
      exact h.entropy
    · exact h.metadata
    · exact h.record
  · exact ⟨(absurd · he), (absurd · hm), (absurd · hr), hb⟩

/-- A block that has received nothing, with its counters at 0 and outside `FAILED`. -/
theorem State.Inv.of_fresh {s : State} (hp : s.params.wf) (ho : s.out.wf = true) (hv : s.rcv = []) (hi : s.idx = 0)
    (hr : s.retry = 0) (he : s.err = .none) (hs : s.st ≠ .failed) : s.Inv where
  params := hp
  out := ho
  rcv := by rw [hv]; rfl
  position := .of_idx_zero hp.2 hi
  retry := by omega
  err := ⟨fun _ => hs, fun _ => he⟩
  untouched _ _ := by rw [hv]; rfl

/-- Settles O46: a block after reset has received nothing; the default layout is valid. -/
theorem invariantHoldsAtReset : Obligations.InvariantHoldsAtReset :=
  .of_fresh ⟨by decide, Nat.le_add_left 1 _⟩ rfl rfl rfl rfl rfl nofun

/-- Settles O45: the values are the fields of `State.reset`; an empty slot reads as 0x00. -/
theorem resetValues : Obligations.ResetValues :=
  ⟨rfl, rfl, rfl, rfl, Memory.read_nil, rfl, rfl⟩

theorem State.Inv.resetBlock {s : State} (h : s.Inv) : s.resetBlock.Inv :=
  .of_fresh h.params rfl rfl rfl rfl rfl nofun

theorem State.Inv.startAttempt {s : State} (h : s.Inv) : s.startAttempt.Inv :=
  .of_fresh (by simpa using h.params) s.wf_out_startAttempt s.startAttempt_rcv s.startAttempt_idx
    s.startAttempt_retry s.startAttempt_err (by simp)

/-- R25: a busy block has recorded no failure. -/
theorem State.Inv.err_of_busy {s : State} (h : s.Inv) (hb : s.st.busy = true) : s.err = .none :=
  h.err.mpr fun e => by rw [e] at hb; cases hb

/-! ### What each effect does to a part of the block -/

theorem Effect.params_eq {s t : State} (e : Effect s t) : t.params = s.params := by
  cases e <;> simp

/-- R38: only an accepted `'t'` writes `OUT`. -/
theorem Effect.out_eq {s t : State} (e : Effect s t) :
    t.out = s.out ∨ (s.st.busy = false ∧ t = s.startAttempt) := by
  cases e with
  | started hb => exact .inr ⟨hb, rfl⟩
  | _ => left; simp

/-- The two handshake matches that keep `idx`, by their phases. -/
theorem matchedTo_cases {p q : Phase} (h : matchedTo p = some q) :
    p = .hsMode ∧ q = .hsMaster ∨ p = .hsMaster ∧ q = .hsVersion := by
  cases p <;> simp_all [matchedTo]

/-- R24: the retry counter goes up only within the budget. -/
theorem Effect.retry_le {s t : State} (e : Effect s t) (h : s.Inv) : t.retry ≤ t.params.retryBudget := by
  rw [e.params_eq]
  have hr := h.retry
  cases e with
  | retried _ _ _ hlt => simpa using hlt
  | _ => simp [hr]

/-- R25: `err` is set when `FAILED` is entered and cleared by `'t'`. -/
theorem Effect.err_iff {s t : State} (e : Effect s t) (h : s.Inv) : t.err = .none ↔ t.st ≠ .failed := by
  have he := h.err
  cases e with
  | failed _ _ c _ hc => simp [hc]
  | started => simp
  | matched _ _ q hq =>
    rcases matchedTo_cases hq with ⟨hs, rfl⟩ | ⟨hs, rfl⟩ <;> simp [h.err_of_busy (by rw [hs]; rfl)]
  | agreed _ _ hs | filledAll _ _ hs | describedAll _ _ hs | selected _ _ hs | storedAll _ _ hs | confirmed _ _ hs =>
    simp [h.err_of_busy (by rw [hs]; rfl)]
  | _ => simpa using he

/-- R23: the counter stays inside the phase that counts. -/
theorem Effect.positionOk {s t : State} (e : Effect s t) (h : s.Inv) : t.PositionOk := by
  have hn : 1 ≤ s.params.nEntropy := h.params.2
  have hk := h.position
  cases e with
  | started => exact (State.Inv.startAttempt h).position
  | computed | configured | nothing | offered | helped => exact .of_kept hk (by simp) (by simp) (.inl (by simp))
  | matched _ _ q hq =>
    exact .of_kept hk rfl rfl (.inr (by rcases matchedTo_cases hq with ⟨-, rfl⟩ | ⟨-, rfl⟩ <;> simp))
  | retried => exact .of_kept hk rfl rfl (.inl rfl)
  | confirmed | failed => exact .of_kept hk rfl rfl (.inr (by simp))
  | agreed | filledAll | selected | storedAll => exact .of_idx_zero hn rfl
  | describedAll => exact .of_idx_zero (by simpa using hn) rfl
  | filled _ _ hs hi => exact .of_counting (.inl ⟨hs, hi⟩)
  | described _ _ hs hi => exact .of_counting (.inr (.inl (by simp [hs, hi])))
  | stored _ _ hs hi => exact .of_counting (.inr (.inr ⟨hs, hi⟩))

/-- R186: `METADATA` stores at most the byte at `35 + idx`. -/
theorem State.keepMetadata_rcv (rx : Byte) (s : State) :
    (s.keepMetadata rx).rcv =
      if s.params.wireTrailer = true ∧ 9 ≤ s.idx then s.rcv.write (35 + s.idx) rx else s.rcv := by
  rw [State.keepMetadata_eq]

/-- R21: `RCV` keeps the canonical form. -/
theorem Effect.rcv_wf {s t : State} (e : Effect s t) (h : s.Inv) : t.rcv.wf = true := by
  have hv := h.rcv
  have hm (tx rx) (hi : s.idx + 1 ≤ metaLen) :
      ((s.exchanged tx (.byte rx)).keepMetadata rx).rcv.wf = true := by
    rw [State.keepMetadata_rcv]
    split
    · exact Memory.wf_write hv (by simp only [State.exchanged_idx, metaLen, slotLen] at hi ⊢; omega) rx
    · exact hv
  have hr (rx) (hi : s.idx + 1 ≤ coreLen) : (s.rcv.write s.idx rx).wf = true :=
    Memory.wf_write hv (by simp only [coreLen, slotLen] at hi ⊢; omega) rx
  cases e with
  | started => simp
  | described tx rx _ hi => exact hm tx rx hi.le
  | describedAll tx rx _ hi => exact hm tx rx hi.le
  | stored _ rx _ hi => exact hr rx hi.le
  | storedAll _ rx _ hi => exact hr rx hi.le
  | _ => simpa using hv

/-! ### The bytes of `RCV` that the attempt has not written (R39) -/

theorem State.untouched_early {s : State} {a : Nat}
    (hs : s.st = .hsMode ∨ s.st = .hsMaster ∨ s.st = .hsVersion ∨ s.st = .entropy) : s.Untouched a := by
  rcases hs with hs | hs | hs | hs <;> simp only [State.Untouched, hs]

theorem State.untouched_metadata {s : State} {a : Nat} (hs : s.st = .metadata) :
    s.Untouched a ↔ ¬ (s.params.wireTrailer = true ∧ coreLen ≤ a ∧ a < 35 + s.idx) := by
  simp only [State.Untouched, hs]

theorem State.untouched_select {s : State} {a : Nat} (hs : s.st = .select) :
    s.Untouched a ↔ a < coreLen ∨ s.params.wireTrailer = false := by
  simp only [State.Untouched, hs]

theorem State.untouched_record {s : State} {a : Nat} (hs : s.st = .record) :
    s.Untouched a ↔ (s.idx ≤ a ∧ a < coreLen) ∨ (coreLen ≤ a ∧ s.params.wireTrailer = false) := by
  simp only [State.Untouched, hs]

/-- With the trailer not wired, no phase writes a byte of it. -/
theorem State.untouched_unwired {s : State} {a : Nat} (ha : coreLen ≤ a) (hw : s.params.wireTrailer = false) :
    s.Untouched a := by
  unfold State.Untouched
  split <;> simp [ha, hw]

/-- R186: after a metadata byte the core reads as 0x00, and so do the trailer's bytes still to come. -/
theorem State.Inv.read_keepMetadata {s : State} (h : s.Inv) (hs : s.st = .metadata) (rx : Byte) {a : Nat}
    (ha : ¬ (s.params.wireTrailer = true ∧ coreLen ≤ a ∧ a < 35 + (s.idx + 1))) :
    (s.keepMetadata rx).rcv.read a = 0x00 := by
  have hu : s.rcv.read a = 0x00 :=
    h.untouched a ((State.untouched_metadata hs).mpr fun ⟨hw, hlo, hhi⟩ => ha ⟨hw, hlo, by omega⟩)
  rw [State.keepMetadata_rcv]
  split
  · next hk =>
    have hne : 35 + s.idx ≠ a := fun e => ha ⟨hk.1, by simp only [coreLen]; omega, by omega⟩
    rw [Memory.read_write h.rcv, if_neg hne, hu]
  · exact hu

/-- R188: after a record byte the core bytes still to come read as 0x00, and so does a trailer that is not
wired. -/
theorem State.Inv.read_store_record {s : State} (h : s.Inv) (hs : s.st = .record) (hi : s.idx < coreLen) (rx : Byte)
    {a : Nat} (ha : (s.idx + 1 ≤ a ∧ a < coreLen) ∨ (coreLen ≤ a ∧ s.params.wireTrailer = false)) :
    (s.rcv.write s.idx rx).read a = 0x00 := by
  have hne : s.idx ≠ a := by omega
  rw [Memory.read_write h.rcv, if_neg hne]
  exact h.untouched a ((State.untouched_record hs).mpr (ha.imp_left fun ⟨hlo, hhi⟩ => ⟨by omega, hhi⟩))

/-- R39: what no step of the current attempt has written reads as 0x00. -/
theorem Effect.untouched {s t : State} (e : Effect s t) (h : s.Inv) {a : Nat} (ha : t.Untouched a) :
    t.rcv.read a = 0x00 := by
  have hu := h.untouched a
  have hex (tx rx) := h.of_sameBlock (s.sameBlock_exchanged tx (.byte rx))
  cases e with
  | started => simp
  | offered b => exact (h.of_sameBlock (s.sameBlock_offerWhileBusy b)).untouched a ha
  | computed | configured | nothing | helped => exact hu ha
  | matched _ _ q hq => exact hu (State.untouched_early ((matchedTo_cases hq).elim (.inl ·.1) (.inr <| .inl ·.1)))
  | agreed _ _ hs => exact hu (State.untouched_early (by simp [hs]))
  | retried _ _ hs => exact hu (State.untouched_early (by tauto))
  | filled _ _ hs | filledAll _ _ hs => exact hu (State.untouched_early (by simp [hs]))
  | described tx rx hs =>
    exact (hex tx rx).read_keepMetadata hs rx (by simpa using (State.untouched_metadata (by simp [hs])).mp ha)
  | describedAll tx rx hs hi =>
    refine (hex tx rx).read_keepMetadata hs rx fun ⟨hw, hlo, _⟩ => ?_
    rcases (State.untouched_select rfl).mp ha with hlt | hw'
    · omega
    · exact absurd hw (by simpa using hw')
  | selected _ _ hs =>
    refine hu ((State.untouched_select hs).mpr ?_)
    exact ((State.untouched_record rfl).mp ha).imp And.right And.right
  | stored _ rx hs hi => exact h.read_store_record hs (by omega) rx ((State.untouched_record (by simpa using hs)).mp ha)
  | storedAll _ rx hs hi => exact h.read_store_record hs (by omega) rx (.inr ha)
  | confirmed | failed => exact hu (State.untouched_unwired ha.1 ha.2)

/-- Every meaning that answers a next state keeps the invariant. -/
theorem Effect.inv {s t : State} (e : Effect s t) (h : s.Inv) : t.Inv where
  params := by rw [e.params_eq]; exact h.params
  out := by
    rcases e.out_eq with ho | ⟨-, rfl⟩
    · rw [ho]; exact h.out
    · exact s.wf_out_startAttempt
  rcv := e.rcv_wf h
  position := e.positionOk h
  retry := e.retry_le h
  err := e.err_iff h
  untouched _ := e.untouched h

/-- Settles O47: a step is a poll, an event of the environment or an operation, and each keeps the
invariant. -/
theorem stepKeepsTheInvariant : Obligations.StepKeepsTheInvariant := by
  intro s t h hstep
  rcases step_cases hstep with rfl | ⟨c, u, hp, rfl⟩ | ⟨u, hp, rfl⟩ | ⟨x, u, i, hp, -, hx⟩
  · exact h
  · exact (h.of_sameBlock (State.sameBlock_pending hp)).of_sameBlock ⟨rfl, rfl, rfl, rfl, rfl, rfl, rfl⟩
  · exact (h.of_sameBlock (State.sameBlock_pending hp)).resetBlock
  · exact (exec_effect hx).inv (h.of_sameBlock (State.sameBlock_pending hp))


/-! ### Which operations answer an exchange -/

/-- The answer that an operation brings to the exchange the block has issued (R162, R180); none for a
command, `CONFIGURE` or a codec operation. -/
def answerOf : Instr → Option Answer
  | .hsMode rx | .hsMaster rx | .hsVersion rx | .entropy rx | .metadata rx | .select rx | .record rx
  | .confirm rx => some (.byte rx)
  | .timeoutAny => some .timeout
  | .xchg _ ans => some ans
  | _ => none

/-- R220: the two operations that are the `'t'` command in a block that is not busy. -/
def isTrade (i : Instr) : Prop := i = .cmdTrade ∨ i = .cmdWhileBusy 0x74

/-- An outcome that is refused unless `p` holds. -/
theorem guard_of_next {p : Prop} [Decidable p] {o : Host.Outcome State Fault Refusal} {r : Refusal} {t : State}
    (h : (if p then o else .refused r) = .next t) : p := by
  by_contra hp
  rw [if_neg hp] at h
  cases h

/-! Each engine step takes place in its own phase only (R181). -/

theorem execHsMode_st {rx : Byte} {s t : State} (h : execHsMode rx s = .next t) : s.st = .hsMode :=
  guard_of_next h

theorem execHsMaster_st {rx : Byte} {s t : State} (h : execHsMaster rx s = .next t) : s.st = .hsMaster :=
  guard_of_next h

theorem execHsVersion_st {rx : Byte} {s t : State} (h : execHsVersion rx s = .next t) : s.st = .hsVersion :=
  guard_of_next h

theorem execEntropy_st {rx : Byte} {s t : State} (h : execEntropy rx s = .next t) : s.st = .entropy :=
  (guard_of_next h).1

theorem execMetadata_st {rx : Byte} {s t : State} (h : execMetadata rx s = .next t) : s.st = .metadata :=
  (guard_of_next h).1

theorem execSelect_st {rx : Byte} {s t : State} (h : execSelect rx s = .next t) : s.st = .select :=
  guard_of_next h

theorem execRecord_st {rx : Byte} {s t : State} (h : execRecord rx s = .next t) : s.st = .record :=
  (guard_of_next h).1

theorem execConfirm_st {rx : Byte} {s t : State} (h : execConfirm rx s = .next t) : s.st = .confirm :=
  guard_of_next h

/-- R180: an engine step that takes place is the rule of the current phase on its answer. -/
theorem answered_of_exec {i : Instr} {ans : Answer} {s t : State} (hi : answerOf i = some ans)
    (h : exec i s = .next t) : s.answered ans = .next t := by
  cases i <;> cases hi
  case hsMode => simpa only [exec, State.answered, execHsMode_st h] using h
  case hsMaster => simpa only [exec, State.answered, execHsMaster_st h] using h
  case hsVersion => simpa only [exec, State.answered, execHsVersion_st h] using h
  case entropy => simpa only [exec, State.answered, execEntropy_st h] using h
  case metadata => simpa only [exec, State.answered, execMetadata_st h] using h
  case select => simpa only [exec, State.answered, execSelect_st h] using h
  case record => simpa only [exec, State.answered, execRecord_st h] using h
  case confirm => simpa only [exec, State.answered, execConfirm_st h] using h
  case timeoutAny => exact h
  case xchg tx =>
    have htx : s.tx = some tx := guard_of_next h
    simpa only [exec, execXchg, if_pos htx] using h

/-- R162: only a busy block has an exchange to be answered. -/
theorem busy_of_answered {ans : Answer} {s t : State} (h : s.answered ans = .next t) : s.st.busy = true := by
  by_contra hb
  have htx : s.tx = none := by
    rw [← Option.not_isSome_iff_eq_none, State.tx_isSome]
    exact hb
  cases ans with
  | timeout => simp [State.answered, execTimeoutAny, htx] at h
  | byte rx => cases hs : s.st <;> simp_all [State.answered, Phase.busy]

/-- R221: what the `'t'` command does to a block that is not busy. -/
theorem exec_trade {i : Instr} {s : State} (hb : s.st.busy = false) (hi : isTrade i) :
    exec i s = .next s.startAttempt := by
  rcases hi with rfl | rfl <;> simp [exec, execCmdTrade, execCmdWhileBusy, tradeByte, hb]

/-- A command row's meaning on anything but an accepted `'t'` leaves the block as it is. -/
theorem sameBlock_of_command {b : Byte} {s t u : State} (hu : s.st.busy = false → s.SameBlock u)
    (h : (if s.st.busy then Host.Outcome.next (s.offerWhileBusy b) else .next u : Host.Outcome State Fault Refusal) =
      .next t) : s.SameBlock t := by
  cases hb : s.st.busy <;> rw [hb] at h <;> (injection h with h; subst h)
  · exact hu hb
  · exact s.sameBlock_offerWhileBusy b

theorem sameBlock_of_compute {ok : Bool} {v : Value} {s t : State} (h : s.compute ok v = .next t) : s.SameBlock t := by
  obtain ⟨-, rfl⟩ := State.compute_next.mp h
  exact s.sameBlock_putResult v

/-- R38: an operation that answers no exchange and is no accepted `'t'` leaves the block as it is. -/
theorem sameBlock_of_no_answer {i : Instr} {s t : State} (hi : answerOf i = none)
    (ht : ¬ (s.st.busy = false ∧ isTrade i)) (h : exec i s = .next t) : s.SameBlock t := by
  cases i
  case cmdTrade => exact sameBlock_of_command (fun hb => absurd ⟨hb, .inl rfl⟩ ht) h
  case cmdHelp => exact sameBlock_of_command (fun _ => s.sameBlock_emit _) h
  case cmdNop b =>
    simp only [exec, execCmdNop] at h
    split at h
    · cases h
    · exact sameBlock_of_command (fun _ => .refl s) h
  case cmdWhileBusy b =>
    simp only [exec, execCmdWhileBusy] at h
    split at h
    · cases h
      exact s.sameBlock_offerWhileBusy b
    · next hb =>
      split at h
      · next he => exact absurd ⟨by simpa using hb, .inr (congrArg Instr.cmdWhileBusy he)⟩ ht
      · split at h <;> cases h
        · exact s.sameBlock_emit _
        · exact .refl s
  case configure c =>
    simp only [exec, execConfigure] at h
    split at h <;> cases h
    exact s.sameBlock_link _
  case hsMode | hsMaster | hsVersion | entropy | metadata | select | record | confirm | timeoutAny | xchg => cases hi
  all_goals exact sameBlock_of_compute (by rw [exec] at h; exact h)

/-! ### The position (R31) -/

/-- What each effect does to the phase and the counter. -/
theorem Effect.position {s t : State} (e : Effect s t) :
    (t.st = s.st ∧ (t.idx = s.idx ∨ (s.st.busy = true ∧ t.idx = s.idx + 1))) ∨
    (s.st.busy = true ∧ s.st.successor = some t.st ∧ (t.idx = 0 ∨ t.idx = s.idx)) ∨
    (s.st.busy = true ∧ t.st = .failed ∧ t.idx = s.idx) ∨
    (s.st.busy = false ∧ t = s.startAttempt) := by
  cases e with
  | started hb => exact .inr (.inr (.inr ⟨hb, rfl⟩))
  | failed _ _ _ hb => exact .inr (.inr (.inl ⟨hb, rfl, rfl⟩))
  | filled _ _ hs | stored _ _ hs => exact .inl ⟨rfl, .inr ⟨by rw [hs]; rfl, rfl⟩⟩
  | described _ _ hs => exact .inl ⟨by simp, .inr ⟨by rw [hs]; rfl, by simp⟩⟩
  | agreed _ _ hs | filledAll _ _ hs | describedAll _ _ hs | selected _ _ hs | storedAll _ _ hs =>
    exact .inr (.inl ⟨by rw [hs]; rfl, by rw [hs]; rfl, .inl rfl⟩)
  | confirmed _ _ hs => exact .inr (.inl ⟨by rw [hs]; rfl, by rw [hs]; rfl, .inr rfl⟩)
  | matched _ _ q hq =>
    rcases matchedTo_cases hq with ⟨hs, rfl⟩ | ⟨hs, rfl⟩ <;>
      exact .inr (.inl ⟨by rw [hs]; rfl, by rw [hs]; rfl, .inr rfl⟩)
  | computed | configured | nothing | offered | helped | retried => exact .inl ⟨by simp, .inl (by simp)⟩

/-- Only the `'t'` command starts an attempt. -/
theorem isTrade_of_started {i : Instr} {s : State} (hb : s.st.busy = false) (h : exec i s = .next s.startAttempt) :
    isTrade i := by
  cases hi : answerOf i with
  | some ans => rw [busy_of_answered (answered_of_exec hi h)] at hb; cases hb
  | none =>
    by_contra ht
    have hst := (sameBlock_of_no_answer hi (fun hc => ht hc.2) h).st
    rw [State.startAttempt_st] at hst
    rw [← hst] at hb
    cases hb

/-- Settles O49: the effects move the position in these ways, and only `'t'` has the effect of a start. -/
theorem positionMovesInTheFixedOrder : Obligations.PositionMovesInTheFixedOrder := by
  intro i s t h
  rcases (exec_effect h).position with hk | hs | hf | ⟨hb, rfl⟩
  · exact .inl hk
  · exact .inr (.inl hs)
  · exact .inr (.inr (.inl hf))
  · exact .inr (.inr (.inr ⟨hb, isTrade_of_started hb h, s.startAttempt_st, s.startAttempt_idx⟩))

/-! ### The slots (R38) -/

/-- The slot with the byte that was received, if one was, at the offset it is stored at. -/
def Memory.receive (m : Memory) : Option (Nat × Byte) → Memory
  | none => m
  | some (a, v) => m.write a v

/-- An operation that answers no exchange brings no byte. -/
theorem received_of_no_answer {i : Instr} {s : State} (hi : answerOf i = none) : s.received i = none := by
  unfold State.received
  split
  case h_5 => rfl
  all_goals cases hi

/-- Only `METADATA` and `RECORD` store what they receive. -/
theorem received_of_phase {i : Instr} {s : State} (hm : s.st ≠ .metadata) (hr : s.st ≠ .record) :
    s.received i = none := by
  unfold State.received
  split
  · exact absurd ‹_› hr
  · exact absurd ‹_› hr
  · exact absurd ‹_› hm
  · exact absurd ‹_› hm
  · rfl

/-- An engine step receives what the `XCHG` it answers receives. -/
theorem received_of_exec {i : Instr} {ans : Answer} {s t : State} (hi : answerOf i = some ans)
    (h : exec i s = .next t) (tx : Byte) : s.received i = s.received (.xchg tx ans) := by
  cases i <;> cases hi
  case hsMode => simp only [State.received, execHsMode_st h]
  case hsMaster => simp only [State.received, execHsMaster_st h]
  case hsVersion => simp only [State.received, execHsVersion_st h]
  case entropy => simp only [State.received, execEntropy_st h]
  case metadata => simp only [State.received, execMetadata_st h]
  case select => simp only [State.received, execSelect_st h]
  case record => simp only [State.received, execRecord_st h]
  case confirm => simp only [State.received, execConfirm_st h]
  case timeoutAny => cases hs : s.st <;> simp only [State.received, hs]
  case xchg =>
    unfold State.received
    cases s.st <;> cases ans <;> rfl

/-- A busy block other than in `METADATA` and `RECORD` stores nothing. -/
theorem Effect.rcv_eq {s t : State} (e : Effect s t) (hb : s.st.busy = true) (hm : s.st ≠ .metadata)
    (hr : s.st ≠ .record) : t.rcv = s.rcv := by
  cases e with
  | started hb' => rw [hb] at hb'; cases hb'
  | described _ _ hs | describedAll _ _ hs => exact absurd hs hm
  | stored _ _ hs | storedAll _ _ hs => exact absurd hs hr
  | _ => simp

/-- R188: `RECORD` stores the received byte at `idx`. -/
theorem execRecord_rcv {rx : Byte} {s t : State} (h : execRecord rx s = .next t) : t.rcv = s.rcv.write s.idx rx := by
  simp only [execRecord] at h
  split at h
  · split at h <;> cases h <;> rfl
  · cases h

/-- R186: `METADATA` stores what `keepMetadata` does. -/
theorem execMetadata_rcv {rx : Byte} {s t : State} (h : execMetadata rx s = .next t) :
    t.rcv = (s.keepMetadata rx).rcv := by
  have hex (tx ans) : ((s.exchanged tx ans).keepMetadata rx).rcv = (s.keepMetadata rx).rcv := by
    rw [State.keepMetadata_rcv, State.keepMetadata_rcv]
    rfl
  simp only [execMetadata] at h
  split at h
  · split at h <;> cases h <;> exact hex _ _
  · cases h

/-- R190: a timeout stores nothing. -/
theorem execTimeoutAny_rcv {s t : State} (h : execTimeoutAny s = .next t) : t.rcv = s.rcv := by
  unfold execTimeoutAny at h
  split at h <;> cases h
  rfl

/-- R38: the answer of an exchange changes `RCV` by the byte received, if one is stored. -/
theorem rcv_of_answered {ans : Answer} {s t : State} (h : s.answered ans = .next t) (tx : Byte) :
    t.rcv = s.rcv.receive (s.received (.xchg tx ans)) := by
  cases ans with
  | timeout =>
    have hnone : s.received (.xchg tx .timeout) = none := by
      unfold State.received
      cases s.st <;> rfl
    rw [hnone]
    exact execTimeoutAny_rcv h
  | byte rx =>
    by_cases hr : s.st = .record
    · simp only [State.answered, State.received, hr] at h ⊢
      exact execRecord_rcv h
    by_cases hm : s.st = .metadata
    · simp only [State.answered, State.received, hm] at h ⊢
      rw [execMetadata_rcv h, State.keepMetadata_rcv]
      split <;> rfl
    · rw [received_of_phase hm hr]
      exact (State.answered_effect h).rcv_eq (busy_of_answered h) hm hr

/-- R55: a read after a byte was received. -/
theorem Memory.read_receive {m : Memory} (hm : m.wf = true) (a : Nat) (v : Byte) :
    (m.receive (some (a, v))).read a = v ∧ ∀ b, b ≠ a → (m.receive (some (a, v))).read b = m.read b := by
  refine ⟨Memory.read_write_same m a v, fun b hb => ?_⟩
  rw [Memory.receive, Memory.read_write hm, if_neg hb.symm]

/-- R38: anything but an accepted `'t'` leaves `OUT` alone and changes `RCV` by the byte received. -/
theorem slots_of_exec {i : Instr} {s t : State} (ht : ¬ (s.st.busy = false ∧ isTrade i)) (h : exec i s = .next t) :
    t.out = s.out ∧ t.rcv = s.rcv.receive (s.received i) := by
  cases hi : answerOf i with
  | none =>
    have hsame := sameBlock_of_no_answer hi ht h
    rw [received_of_no_answer hi]
    exact ⟨hsame.out, hsame.rcv⟩
  | some ans =>
    have ha := answered_of_exec hi h
    rw [received_of_exec hi h 0]
    refine ⟨(exec_effect h).out_eq.resolve_right fun ⟨hb, _⟩ => ?_, rcv_of_answered ha 0⟩
    exact absurd (busy_of_answered ha) (by simp [hb])

/-- Settles O50: an accepted `'t'` is `startAttempt`; any other operation answers an exchange or leaves the
block as it is. -/
theorem slotsHaveFewWriters : Obligations.SlotsHaveFewWriters := by
  intro i s t hw h
  refine ⟨fun ⟨hb, hi⟩ => ?_, fun ht => ?_⟩
  · rw [exec_trade hb hi] at h
    injection h with h
    subst h
    exact ⟨⟨_, State.compute_next.mpr ⟨wf_buildL1 _ _ _, rfl⟩, by simp⟩, by simp⟩
  · obtain ⟨ho, hr⟩ := slots_of_exec ht h
    refine ⟨ho, fun hn => by rw [hr, hn]; rfl, fun a v hs => ?_⟩
    rw [hr, hs]
    exact Memory.read_receive hw a v

/-! ### The transport configuration (R28, R161) -/

/-- The state with another transport configuration recorded by the adapter. -/
def State.withLink (l : Option LinkConfig) (s : State) : State := { s with link := l }

/-- An outcome with its next state, if it has one, seen through `f`. -/
def mapNext (f : State → State) : Host.Outcome State Fault Refusal → Host.Outcome State Fault Refusal
  | .next s => .next (f s)
  | .fault e => .fault e
  | .refused r => .refused r

theorem mapNext_next (f : State → State) (s : State) : mapNext f (.next s) = .next (f s) := rfl

theorem mapNext_refused (f : State → State) (r : Refusal) : mapNext f (.refused r) = .refused r := rfl

theorem mapNext_ite (f : State → State) (p : Prop) [Decidable p] (a b : Host.Outcome State Fault Refusal) :
    mapNext f (if p then a else b) = if p then mapNext f a else mapNext f b := apply_ite ..

theorem State.compute_withLink (ok : Bool) (v : Value) (l : Option LinkConfig) (s : State) :
    (s.withLink l).compute ok v = mapNext (State.withLink l) (s.compute ok v) := by
  cases ok <;> rfl

theorem State.startAttempt_withLink (l : Option LinkConfig) (s : State) :
    (s.withLink l).startAttempt = s.startAttempt.withLink l := by
  simp only [State.startAttempt, State.withLink]

theorem State.offerWhileBusy_withLink (b : Byte) (l : Option LinkConfig) (s : State) :
    (s.withLink l).offerWhileBusy b = (s.offerWhileBusy b).withLink l := by
  simp only [State.offerWhileBusy_eq, State.withLink]

theorem State.keepMetadata_withLink (rx : Byte) (l : Option LinkConfig) (s : State) :
    (s.withLink l).keepMetadata rx = (s.keepMetadata rx).withLink l := by
  simp only [State.keepMetadata_eq, State.withLink]

theorem State.handshake_withLink (code rx : Byte) (next : State → State) (l : Option LinkConfig) (s : State)
    (hn : ∀ u, next (u.withLink l) = (next u).withLink l) :
    (s.withLink l).handshake code rx next = (s.handshake code rx next).withLink l := by
  unfold State.handshake
  rw [apply_ite (State.withLink l), apply_ite (State.withLink l), ← hn]
  rfl

/-! Each engine step does the same with another transport configuration. -/

section
variable (rx : Byte) (l : Option LinkConfig) (s : State)

theorem execHsMode_withLink : execHsMode rx (s.withLink l) = mapNext (State.withLink l) (execHsMode rx s) := by
  have hh := State.handshake_withLink s.params.modeCode rx (State.goto .hsMaster) l
    (s.exchanged s.params.modeCode (.byte rx)) fun _ => rfl
  unfold execHsMode
  rw [mapNext_ite, mapNext_next, ← hh]
  rfl

theorem execHsMaster_withLink : execHsMaster rx (s.withLink l) = mapNext (State.withLink l) (execHsMaster rx s) := by
  have hh := State.handshake_withLink s.params.masterCode rx (State.goto .hsVersion) l
    (s.exchanged s.params.masterCode (.byte rx)) fun _ => rfl
  unfold execHsMaster
  rw [mapNext_ite, mapNext_next, ← hh]
  rfl

theorem execHsVersion_withLink :
    execHsVersion rx (s.withLink l) = mapNext (State.withLink l) (execHsVersion rx s) := by
  have hh := State.handshake_withLink s.params.versionCode rx (State.enter .entropy) l
    (s.exchanged s.params.versionCode (.byte rx)) fun _ => rfl
  unfold execHsVersion
  rw [mapNext_ite, mapNext_next, ← hh]
  rfl

theorem execEntropy_withLink : execEntropy rx (s.withLink l) = mapNext (State.withLink l) (execEntropy rx s) := by
  simp only [execEntropy, mapNext_ite]
  rfl

theorem execMetadata_withLink : execMetadata rx (s.withLink l) = mapNext (State.withLink l) (execMetadata rx s) := by
  have hk (tx) : ((s.withLink l).exchanged tx (.byte rx)).keepMetadata rx =
      ((s.exchanged tx (.byte rx)).keepMetadata rx).withLink l := State.keepMetadata_withLink rx l (s.exchanged tx _)
  simp only [execMetadata, mapNext_ite, hk]
  rfl

theorem execSelect_withLink : execSelect rx (s.withLink l) = mapNext (State.withLink l) (execSelect rx s) := by
  simp only [execSelect, mapNext_ite]
  rfl

theorem execRecord_withLink : execRecord rx (s.withLink l) = mapNext (State.withLink l) (execRecord rx s) := by
  simp only [execRecord, mapNext_ite]
  rfl

theorem execConfirm_withLink : execConfirm rx (s.withLink l) = mapNext (State.withLink l) (execConfirm rx s) := by
  simp only [execConfirm, mapNext_ite]
  rfl

theorem execTimeoutAny_withLink : execTimeoutAny (s.withLink l) = mapNext (State.withLink l) (execTimeoutAny s) := by
  unfold execTimeoutAny
  rw [show (s.withLink l).tx = s.tx from rfl]
  cases s.tx <;> rfl

/-- R180: the answer of an exchange does the same with another transport configuration. -/
theorem State.answered_withLink (ans : Answer) :
    (s.withLink l).answered ans = mapNext (State.withLink l) (s.answered ans) := by
  unfold State.answered
  rw [show (s.withLink l).st = s.st from rfl]
  split
  · exact execTimeoutAny_withLink l s
  · exact execHsMode_withLink _ l s
  · exact execHsMaster_withLink _ l s
  · exact execHsVersion_withLink _ l s
  · exact execEntropy_withLink _ l s
  · exact execMetadata_withLink _ l s
  · exact execSelect_withLink _ l s
  · exact execRecord_withLink _ l s
  · exact execConfirm_withLink _ l s
  all_goals rfl

end

/-- R28: an operation other than `CONFIGURE` does not read the transport configuration. -/
theorem exec_withLink {i : Instr} (hi : ∀ c, i ≠ .configure c) (l : Option LinkConfig) (s : State) :
    exec i (s.withLink l) = mapNext (State.withLink l) (exec i s) := by
  have hst : (s.withLink l).st = s.st := rfl
  cases i
  case configure c => exact absurd rfl (hi c)
  case cmdTrade =>
    simp only [exec, execCmdTrade, mapNext_ite, mapNext_next, hst, State.startAttempt_withLink,
      State.offerWhileBusy_withLink]
  case cmdHelp =>
    simp only [exec, execCmdHelp, mapNext_ite, mapNext_next, hst, State.offerWhileBusy_withLink]
    rfl
  case cmdNop b =>
    simp only [exec, execCmdNop, mapNext_ite, mapNext_next, mapNext_refused, hst, State.offerWhileBusy_withLink]
  case cmdWhileBusy b =>
    simp only [exec, execCmdWhileBusy, mapNext_ite, mapNext_next, hst, State.startAttempt_withLink,
      State.offerWhileBusy_withLink]
    rfl
  case hsMode => exact execHsMode_withLink _ l s
  case hsMaster => exact execHsMaster_withLink _ l s
  case hsVersion => exact execHsVersion_withLink _ l s
  case entropy => exact execEntropy_withLink _ l s
  case metadata => exact execMetadata_withLink _ l s
  case select => exact execSelect_withLink _ l s
  case record => exact execRecord_withLink _ l s
  case confirm => exact execConfirm_withLink _ l s
  case timeoutAny => exact execTimeoutAny_withLink l s
  case xchg tx ans =>
    simp only [exec, execXchg, mapNext_ite, mapNext_refused, State.answered_withLink]
    rfl
  all_goals
    rw [exec, exec]
    exact State.compute_withLink _ _ l s

/-- Settles O32: `CONFIGURE` overwrites the configuration; any other operation gives the same state seen
with another one, and with its own (`withLink s.link`) keeps it. -/
theorem linkConfigurationIsNeverRead : Obligations.LinkConfigurationIsNeverRead := by
  intro i s t l h
  by_cases hi : ∀ c, i ≠ .configure c
  · have hw (l) : exec i (s.withLink l) = .next (t.withLink l) := by rw [exec_withLink hi, h]; rfl
    have ht : t = t.withLink s.link := Host.Outcome.next.inj (h.symm.trans (hw s.link))
    exact ⟨l, hw l, fun _ => ⟨rfl, (congrArg State.link ht :)⟩⟩
  · push Not at hi
    obtain ⟨c, rfl⟩ := hi
    simp only [exec, execConfigure] at h ⊢
    split at h
    · cases h
    · next hb =>
      cases h
      exact ⟨some c, if_neg hb, fun hne => absurd rfl (hne c)⟩

end Sys2Proof.Machine

/-! Proofs of the memory statements (spec/20_memory.md): the environment's events, and that a busy block
does not read the configuration inputs. -/

namespace Sys2Proof.Machine

/-! ### The environment's events (R64, R191, R270) -/

/-- A non-busy block that holds no byte and is offered nothing has nothing to consume. -/
theorem State.pending_none {s : State} (hb : s.st.busy = false) (hh : s.held = []) (hi : s.inputs = []) :
    s.pending = none := by
  simp [State.pending, hb, hh, hi]

/-- What the environment offers comes next, unless a non-busy block accepts a held byte first (R225). -/
theorem State.pending_inputs {s : State} {x : Input} {xs : List Input} (hbh : s.st.busy = true ∨ s.held = [])
    (h : s.inputs = x :: xs) : s.pending = some (x, { s with inputs := xs }) := by
  cases hb : s.st.busy with
  | true => exact State.pending_busy hb h
  | false =>
    have hh : s.held = [] := hbh.resolve_left (by simp [hb])
    simp [State.pending, hb, hh, h]

theorem step_of_pending_none {s : State} (h : s.pending = none) : step s = .next s := by
  simp only [step, h]

theorem step_of_pending_config {s u : State} {c : ConfigInputs} (h : s.pending = some (.config c, u)) :
    step s = .next { u with config := c } := by
  simp only [step, h]

theorem step_of_pending_reset {s u : State} (h : s.pending = some (.reset, u)) : step s = .next u.resetBlock := by
  simp only [step, h]

/-- Settles O43: each event is what the block consumes next, and `step` takes it as it is. -/
theorem stepTakesTheEnvironmentsEvents : Obligations.StepTakesTheEnvironmentsEvents := by
  intro s
  refine ⟨fun hb hh hi => ?poll, fun c xs hi hbh => ?config, fun xs hi hbh => ?reset⟩
  case poll => exact step_of_pending_none (State.pending_none hb hh hi)
  case config => exact step_of_pending_config (State.pending_inputs hbh hi)
  case reset => exact step_of_pending_reset (State.pending_inputs hbh hi)

/-! ### The configuration inputs (R26, R27, R64) -/

/-- The state with other configuration inputs. -/
def State.withConfig (c : ConfigInputs) (s : State) : State := { s with config := c }

section
variable (rx : Byte) (c : ConfigInputs) (s : State)

theorem State.compute_withConfig (ok : Bool) (v : Value) :
    (s.withConfig c).compute ok v = mapNext (State.withConfig c) (s.compute ok v) := by
  cases ok <;> rfl

theorem State.offerWhileBusy_withConfig (b : Byte) :
    (s.withConfig c).offerWhileBusy b = (s.offerWhileBusy b).withConfig c := by
  simp only [State.offerWhileBusy_eq, State.withConfig]

theorem State.keepMetadata_withConfig :
    (s.withConfig c).keepMetadata rx = (s.keepMetadata rx).withConfig c := by
  simp only [State.keepMetadata_eq, State.withConfig]

theorem State.handshake_withConfig (code : Byte) {next : State → State}
    (hn : ∀ u, next (u.withConfig c) = (next u).withConfig c) :
    (s.withConfig c).handshake code rx next = (s.handshake code rx next).withConfig c := by
  unfold State.handshake
  rw [apply_ite (State.withConfig c), apply_ite (State.withConfig c), ← hn]
  rfl

/-! Each engine step does the same with other configuration inputs. -/

/-- R182 to R184: the three handshake sub-steps differ in their phase, code and successor only. -/
theorem handshakeStep_withConfig (p : Phase) (code : Byte) {next : State → State}
    (hn : ∀ u, next (u.withConfig c) = (next u).withConfig c) :
    (if (s.withConfig c).st = p then
      .next (((s.withConfig c).exchanged code (.byte rx)).handshake code rx next) else .refused .noTransition) =
    mapNext (State.withConfig c)
      (if s.st = p then .next ((s.exchanged code (.byte rx)).handshake code rx next) else .refused .noTransition) := by
  rw [mapNext_ite, mapNext_next, ← State.handshake_withConfig rx c _ code hn]
  rfl

theorem execHsMode_withConfig :
    execHsMode rx (s.withConfig c) = mapNext (State.withConfig c) (execHsMode rx s) :=
  handshakeStep_withConfig rx c s .hsMode s.params.modeCode fun _ => rfl

theorem execHsMaster_withConfig :
    execHsMaster rx (s.withConfig c) = mapNext (State.withConfig c) (execHsMaster rx s) :=
  handshakeStep_withConfig rx c s .hsMaster s.params.masterCode fun _ => rfl

theorem execHsVersion_withConfig :
    execHsVersion rx (s.withConfig c) = mapNext (State.withConfig c) (execHsVersion rx s) :=
  handshakeStep_withConfig rx c s .hsVersion s.params.versionCode fun _ => rfl

theorem execEntropy_withConfig :
    execEntropy rx (s.withConfig c) = mapNext (State.withConfig c) (execEntropy rx s) := by
  simp only [execEntropy, mapNext_ite]
  rfl

theorem execMetadata_withConfig :
    execMetadata rx (s.withConfig c) = mapNext (State.withConfig c) (execMetadata rx s) := by
  have hk (tx) : ((s.withConfig c).exchanged tx (.byte rx)).keepMetadata rx =
      ((s.exchanged tx (.byte rx)).keepMetadata rx).withConfig c :=
    State.keepMetadata_withConfig rx c (s.exchanged tx _)
  simp only [execMetadata, mapNext_ite, hk]
  rfl

theorem execSelect_withConfig :
    execSelect rx (s.withConfig c) = mapNext (State.withConfig c) (execSelect rx s) := by
  simp only [execSelect, mapNext_ite]
  rfl

theorem execRecord_withConfig :
    execRecord rx (s.withConfig c) = mapNext (State.withConfig c) (execRecord rx s) := by
  simp only [execRecord, mapNext_ite]
  rfl

theorem execConfirm_withConfig :
    execConfirm rx (s.withConfig c) = mapNext (State.withConfig c) (execConfirm rx s) := by
  simp only [execConfirm, mapNext_ite]
  rfl

theorem execTimeoutAny_withConfig :
    execTimeoutAny (s.withConfig c) = mapNext (State.withConfig c) (execTimeoutAny s) := by
  unfold execTimeoutAny
  rw [show (s.withConfig c).tx = s.tx from rfl]
  cases s.tx <;> rfl

/-- R180: the answer of an exchange does the same with other configuration inputs. -/
theorem State.answered_withConfig (ans : Answer) :
    (s.withConfig c).answered ans = mapNext (State.withConfig c) (s.answered ans) := by
  unfold State.answered
  rw [show (s.withConfig c).st = s.st from rfl]
  split
  · exact execTimeoutAny_withConfig c s
  · exact execHsMode_withConfig _ c s
  · exact execHsMaster_withConfig _ c s
  · exact execHsVersion_withConfig _ c s
  · exact execEntropy_withConfig _ c s
  · exact execMetadata_withConfig _ c s
  · exact execSelect_withConfig _ c s
  · exact execRecord_withConfig _ c s
  · exact execConfirm_withConfig _ c s
  all_goals rfl

end

/-- R64: the one operation that reads the configuration inputs is an accepted `'t'`, which a busy block
has none of: there every command byte is only offered (R225). -/
theorem exec_withConfig_of_busy {s : State} (hb : s.st.busy = true) (i : Instr) (c : ConfigInputs) :
    exec i (s.withConfig c) = mapNext (State.withConfig c) (exec i s) := by
  have hb' : (s.withConfig c).st.busy = true := hb
  have ho (b : Byte) : Host.Outcome.next ((s.withConfig c).offerWhileBusy b) =
      mapNext (State.withConfig c) (.next (s.offerWhileBusy b)) :=
    congrArg Host.Outcome.next (State.offerWhileBusy_withConfig c s b)
  cases i
  case cmdTrade => simp only [exec, execCmdTrade, if_pos hb, if_pos hb', ho]
  case cmdHelp => simp only [exec, execCmdHelp, if_pos hb, if_pos hb', ho]
  case cmdNop b => simp only [exec, execCmdNop, if_pos hb, if_pos hb', ho, mapNext_ite, mapNext_refused]
  case cmdWhileBusy b => simp only [exec, execCmdWhileBusy, if_pos hb, if_pos hb', ho]
  case hsMode => exact execHsMode_withConfig _ c s
  case hsMaster => exact execHsMaster_withConfig _ c s
  case hsVersion => exact execHsVersion_withConfig _ c s
  case entropy => exact execEntropy_withConfig _ c s
  case metadata => exact execMetadata_withConfig _ c s
  case select => exact execSelect_withConfig _ c s
  case record => exact execRecord_withConfig _ c s
  case confirm => exact execConfirm_withConfig _ c s
  case timeoutAny => exact execTimeoutAny_withConfig c s
  case configure l => simp only [exec, execConfigure, if_pos hb, if_pos hb', mapNext_refused]
  case xchg tx ans =>
    simp only [exec, execXchg, mapNext_ite, mapNext_refused, State.answered_withConfig]
    rfl
  all_goals
    rw [exec, exec]
    exact State.compute_withConfig c s _ _

/-- Settles O54: a busy block's next state, seen with other configuration inputs, is its next state with
them. -/
theorem configurationIsNotSeenWhileBusy : Obligations.ConfigurationIsNotSeenWhileBusy := by
  intro i s t c hb h
  calc exec i (s.withConfig c) = mapNext (State.withConfig c) (exec i s) := exec_withConfig_of_busy hb i c
    _ = .next (t.withConfig c) := by rw [h, mapNext_next]

end Sys2Proof.Machine

/-! Proofs of the encoding statements (spec/30_encoding.md): the decoder and the encoder are inverse to each
other, what every byte decodes to, and what the `FIELD` rows read. -/

namespace Sys2Proof

/-! ### Packed sub-fields (R84, R85) -/

/-- The high part of a packed word counts in units of the low part's range. -/
theorem toNat_append_eq_add {m n : Nat} (x : BitVec m) (y : BitVec n) :
    (x ++ y).toNat = 2 ^ n * x.toNat + y.toNat := by
  rw [BitVec.toNat_append, Nat.shiftLeft_eq, Nat.mul_comm, ← Nat.two_pow_add_eq_or_of_lt y.isLt]

theorem toNat_ppPack (u : BitVec 2) (c : BitVec 6) : (ppPack u c).toNat = 64 * u.toNat + c.toNat :=
  toNat_append_eq_add u c

@[simp] theorem ppGetUps_ppPack (u : BitVec 2) (c : BitVec 6) : ppGetUps (ppPack u c) = u :=
  BitVec.extractLsb'_append_eq_left

@[simp] theorem ppGetCur_ppPack (u : BitVec 2) (c : BitVec 6) : ppGetCur (ppPack u c) = c :=
  BitVec.extractLsb'_append_eq_right

@[simp] theorem ppPack_ppGet (b : Byte) : ppPack (ppGetUps b) (ppGetCur b) = b :=
  (BitVec.extractLsb'_append_extractLsb'_eq_extractLsb' (by rfl)).trans BitVec.extractLsb'_eq_self

theorem toNat_ivPack (a d p c : BitVec 4) :
    (ivPack a d p c).toNat = 4096 * a.toNat + 256 * d.toNat + 16 * p.toNat + c.toNat := by
  simp only [ivPack, toNat_append_eq_add]
  omega

/-- R139: the getter of a nibble divides its place out and keeps 4 bits. -/
theorem toNat_ivGet (w : Half) :
    (ivGet .attack w).toNat = w.toNat / 4096 % 16 ∧ (ivGet .defense w).toNat = w.toNat / 256 % 16 ∧
    (ivGet .speed w).toNat = w.toNat / 16 % 16 ∧ (ivGet .special w).toNat = w.toNat % 16 := by
  simp [ivGet, Nat.shiftRight_eq_div_pow]

@[simp] theorem ivGet_ivPack (a d p c : BitVec 4) :
    ivGet .attack (ivPack a d p c) = a ∧ ivGet .defense (ivPack a d p c) = d ∧
    ivGet .speed (ivPack a d p c) = p ∧ ivGet .special (ivPack a d p c) = c := by
  obtain ⟨ha, hd, hp, hc⟩ := toNat_ivGet (ivPack a d p c)
  rw [toNat_ivPack] at ha hd hp hc
  refine ⟨?_, ?_, ?_, ?_⟩ <;> apply BitVec.eq_of_toNat_eq <;> omega

@[simp] theorem ivPack_ivGet (w : Half) :
    ivPack (ivGet .attack w) (ivGet .defense w) (ivGet .speed w) (ivGet .special w) = w := by
  obtain ⟨ha, hd, hp, hc⟩ := toNat_ivGet w
  apply BitVec.eq_of_toNat_eq
  rw [toNat_ivPack, ha, hd, hp, hc]
  omega

/-! ### The host command channel (R81, R98, R220) -/

theorem decodeHost_busy {st : Phase} (h : st.busy = true) (b : Byte) :
    decodeHost st [b] = .ok (.cmdWhileBusy b) := by
  simp [decodeHost, h]

theorem decodeHost_accepted {st : Phase} (h : st.busy = false) (b : Byte) :
    decodeHost st [b] = .ok (decodeCommand b) := by
  simp [decodeHost, h]

/-- R98: whatever the host channel decodes is one byte. -/
theorem length_of_decodeHost {st : Phase} {bytes : List Byte} {i : Instr} (h : decodeHost st bytes = .ok i) :
    ∃ b, bytes = [b] := by
  match bytes, h with
  | [b], _ => exact ⟨b, rfl⟩

/-- The three commands an accepted byte can be. -/
theorem decodeCommand_cases (b : Byte) :
    (b = tradeByte ∧ decodeCommand b = .cmdTrade) ∨ (b = helpByte ∧ decodeCommand b = .cmdHelp) ∨
    (b ≠ tradeByte ∧ b ≠ helpByte ∧ decodeCommand b = .cmdNop b) := by
  by_cases ht : b = tradeByte
  · exact .inl ⟨ht, if_pos ht⟩
  · by_cases hh : b = helpByte
    · exact .inr (.inl ⟨hh, by rw [decodeCommand, if_neg ht, if_pos hh]⟩)
    · exact .inr (.inr ⟨ht, hh, by rw [decodeCommand, if_neg ht, if_neg hh]⟩)

/-- An accepted byte is a well-formed command whose encoding is that byte. -/
theorem decodeCommand_spec {st : Phase} (h : st.busy = false) (b : Byte) :
    encode (decodeCommand b) = .host [b] ∧ (decodeCommand b).wf = true ∧ (decodeCommand b).selectedIn st = true := by
  obtain ⟨rfl, hd⟩ | ⟨rfl, hd⟩ | ⟨ht, hh, hd⟩ := decodeCommand_cases b <;> rw [hd]
  · exact ⟨rfl, rfl, by simp [Instr.selectedIn, h]⟩
  · exact ⟨rfl, rfl, by simp [Instr.selectedIn, h]⟩
  · exact ⟨rfl, by simp [Instr.wf, ht, hh], by simp [Instr.selectedIn, h]⟩

/-- The operations whose encoding is something on the host command channel. -/
theorem encode_host_cases {i : Instr} {bytes : List Byte} (h : encode i = .host bytes) :
    ∃ b, bytes = [b] ∧ ((i = .cmdTrade ∧ b = tradeByte) ∨ (i = .cmdHelp ∧ b = helpByte) ∨
      i = .cmdNop b ∨ i = .cmdWhileBusy b) := by
  cases i with
  | cmdTrade => cases h; exact ⟨_, rfl, .inl ⟨rfl, rfl⟩⟩
  | cmdHelp => cases h; exact ⟨_, rfl, .inr (.inl ⟨rfl, rfl⟩)⟩
  | cmdNop b => cases h; exact ⟨b, rfl, .inr (.inr (.inl rfl))⟩
  | cmdWhileBusy b => cases h; exact ⟨b, rfl, .inr (.inr (.inr rfl))⟩
  | _ => cases h

/-- R81, R225: the host channel decodes exactly what the encoder puts on it, in its phases. -/
theorem decodeHost_eq_ok_iff {st : Phase} {bytes : List Byte} {i : Instr} :
    decodeHost st bytes = .ok i ↔ encode i = .host bytes ∧ i.wf = true ∧ i.selectedIn st = true := by
  constructor
  · intro h
    obtain ⟨b, rfl⟩ := length_of_decodeHost h
    cases hb : st.busy with
    | true =>
      rw [decodeHost_busy hb] at h
      cases h
      exact ⟨rfl, rfl, hb⟩
    | false =>
      rw [decodeHost_accepted hb] at h
      cases h
      exact decodeCommand_spec hb b
  · rintro ⟨he, hwf, hsel⟩
    obtain ⟨b, rfl, ⟨rfl, rfl⟩ | ⟨rfl, rfl⟩ | rfl | rfl⟩ := encode_host_cases he
    · exact decodeHost_accepted (by simpa [Instr.selectedIn] using hsel) _
    · exact decodeHost_accepted (by simpa [Instr.selectedIn] using hsel) _
    · obtain ⟨ht, hh⟩ : b ≠ tradeByte ∧ b ≠ helpByte := by simpa [Instr.wf] using hwf
      rw [decodeHost_accepted (by simpa [Instr.selectedIn] using hsel), decodeCommand, if_neg ht, if_neg hh]
    · exact decodeHost_busy hsel b

/-! ### The link (R94, R96) -/

/-- R96: a timeout is one in every busy phase. -/
theorem decodeAnswer_timeout {st : Phase} (h : st.busy = true) : decodeAnswer st .timeout = .ok .timeoutAny := by
  cases st with
  | idle | complete | failed => cases h
  | _ => rfl

/-- R96: the answer of an exchange decodes to exactly the rows of the phase whose encoding it is. -/
theorem decodeAnswer_eq_ok_iff {st : Phase} {a : Answer} {i : Instr} :
    decodeAnswer st a = .ok i ↔ encode i = .answer a ∧ i.wf = true ∧ i.selectedIn st = true := by
  constructor
  · intro h
    cases st <;> cases a <;> cases h <;> exact ⟨rfl, rfl, rfl⟩
  · rintro ⟨he, -, hsel⟩
    cases i with
    | timeoutAny => cases he; exact decodeAnswer_timeout hsel
    | hsMode | hsMaster | hsVersion | entropy | metadata | select | record | confirm =>
      cases he
      obtain rfl := eq_of_beq hsel
      rfl
    | _ => cases he

/-! ### Operation calls (R102, R121) -/

/-- R121: what a sized number is decoded as is the number's word, without wrapping. -/
theorem sized_eq_ok_iff {w n : Nat} {k : BitVec w → Instr} {i : Instr} :
    sized w n k = .ok i ↔ ∃ x : BitVec w, n = x.toNat ∧ i = k x := by
  unfold sized
  constructor
  · intro h
    split at h
    · next hn =>
      cases h
      exact ⟨_, (BitVec.toNat_ofNat n w ▸ (Nat.mod_eq_of_lt hn).symm), rfl⟩
    · cases h
  · rintro ⟨x, rfl, rfl⟩
    rw [if_pos x.isLt, BitVec.ofNat_toNat, BitVec.setWidth_eq]

theorem sized_toNat {w : Nat} (x : BitVec w) (k : BitVec w → Instr) : sized w x.toNat k = .ok (k x) :=
  sized_eq_ok_iff.mpr ⟨x, rfl, rfl⟩

section
variable {row w : Nat} {args : List Operand} {i : Instr}

/-! Whatever a parser accepts is the encoding of what it makes of it, if its row's operations are encoded as
calls of the row with the operands the parser reads. -/

theorem encode_of_oneArray {k : List Byte → Instr} (hk : ∀ b, encode (k b) = .call row [.bytes b])
    (h : oneArray k args = .ok i) : encode i = .call row args := by
  match args, h with
  | [.bytes b], rfl => exact hk b

theorem encode_of_oneRecord {k : PartyRecord → Instr} (hk : ∀ r, encode (k r) = .call row [.record r])
    (h : oneRecord k args = .ok i) : encode i = .call row args := by
  match args, h with
  | [.record r], rfl => exact hk r

theorem encode_of_oneWord {k : BitVec w → Instr} (hk : ∀ x, encode (k x) = .call row [.num x.toNat])
    (h : oneWord w k args = .ok i) : encode i = .call row args := by
  match args, h with
  | [.num n], h =>
    obtain ⟨x, rfl, rfl⟩ := sized_eq_ok_iff.mp h
    exact hk x

theorem encode_of_parseGet {k : List Byte → Nat → Instr}
    (hk : ∀ b o, encode (k b o) = .call row [.bytes b, .num o]) (h : parseGet k args = .ok i) :
    encode i = .call row args := by
  match args, h with
  | [.bytes b, .num o], rfl => exact hk b o

theorem encode_of_parsePut {k : List Byte → Nat → BitVec w → Instr}
    (hk : ∀ b o v, encode (k b o v) = .call row [.bytes b, .num o, .num v.toNat])
    (h : parsePut w k args = .ok i) : encode i = .call row args := by
  match args, h with
  | [.bytes b, .num o, .num n], h =>
    obtain ⟨v, rfl, rfl⟩ := sized_eq_ok_iff.mp h
    exact hk b o v

theorem encode_of_parseConfigure (h : parseConfigure args = .ok i) : encode i = .call 13 args := by
  match args, h with
  | [.num _, .num _, .num _, .num _, .num _], rfl => rfl

theorem encode_of_parseXchg (h : parseXchg args = .ok i) : encode i = .call 14 args := by
  match args, h with
  | [.num n, .answer a], h =>
    simp only [parseXchg] at h
    obtain ⟨tx, rfl, rfl⟩ := sized_eq_ok_iff.mp h
    rfl

theorem encode_of_parseFieldGet (h : parseFieldGet args = .ok i) : encode i = .call 19 args := by
  match args, h with
  | [.bytes _, .field _], rfl => rfl

theorem encode_of_parseFieldPut (h : parseFieldPut args = .ok i) : encode i = .call 20 args := by
  match args, h with
  | [.bytes _, .field _, .num _], rfl => rfl

theorem encode_of_parsePadString (h : parsePadString args = .ok i) : encode i = .call 23 args := by
  match args, h with
  | [.bytes _, .name _], rfl => rfl

theorem encode_of_parseSetName (h : parseSetName args = .ok i) : encode i = .call 24 args := by
  match args, h with
  | [.record _, .name _, .bytes _], rfl => rfl

theorem encode_of_parseIvGet (h : parseIvGet args = .ok i) : encode i = .call 34 args := by
  match args, h with
  | [.iv which, .num n], h =>
    obtain ⟨w, rfl, rfl⟩ := sized_eq_ok_iff.mp h
    rfl

theorem encode_of_parseBuildL1 (h : parseBuildL1 args = .ok i) : encode i = .call 36 args := by
  match args, h with
  | [.template t, .bytes name, .num n], h =>
    obtain ⟨id, rfl, rfl⟩ := sized_eq_ok_iff.mp h
    rfl

end

/-- R84: a packed PP byte is called by its own bit pattern. -/
theorem encode_ppPack (b : Byte) : encode (.ppPack (ppGetUps b) (ppGetCur b)) = .call 31 [.num b.toNat] := by
  rw [encode, ← toNat_ppPack, ppPack_ppGet]

/-- R85: a packed IV word is called by its own bit pattern. -/
theorem encode_ivPack (w : Half) :
    encode (.ivPack (ivGet .attack w) (ivGet .defense w) (ivGet .speed w) (ivGet .special w)) =
      .call 35 [.num w.toNat] := by
  rw [encode, ← toNat_ivPack, ivPack_ivGet]

/-- A call that parses is the encoding of the operation it names. The parsers of rows 13 to 36 stand one by
one; rows 37 to 68 each take one array. -/
theorem encode_of_parseCall {row : Nat} {args : List Operand} {i : Instr} (h : parseCall row args = .ok i) :
    encode i = .call row args := by
  unfold parseCall at h
  split at h
  · exact encode_of_parseConfigure h
  · exact encode_of_parseXchg h
  · exact encode_of_parseGet (fun _ _ => rfl) h
  · exact encode_of_parsePut (fun _ _ _ => rfl) h
  · exact encode_of_parseGet (fun _ _ => rfl) h
  · exact encode_of_parsePut (fun _ _ _ => rfl) h
  · exact encode_of_parseFieldGet h
  · exact encode_of_parseFieldPut h
  · exact encode_of_oneRecord (fun _ => rfl) h
  · exact encode_of_oneArray (fun _ => rfl) h
  · exact encode_of_parsePadString h
  · exact encode_of_parseSetName h
  · exact encode_of_oneRecord (fun _ => rfl) h
  · exact encode_of_oneArray (fun _ => rfl) h
  · exact encode_of_oneArray (fun _ => rfl) h
  · exact encode_of_oneRecord (fun _ => rfl) h
  · exact encode_of_oneArray (fun _ => rfl) h
  · exact encode_of_oneWord (fun _ => rfl) h
  · exact encode_of_oneWord encode_ppPack h
  · exact encode_of_oneWord (fun _ => rfl) h
  · exact encode_of_oneWord (fun _ => rfl) h
  · exact encode_of_parseIvGet h
  · exact encode_of_oneWord encode_ivPack h
  · exact encode_of_parseBuildL1 h
  iterate 32 exact encode_of_oneArray (fun _ => rfl) h
  cases h

/-- An operation encoded as a call is what the call parses to. -/
theorem parseCall_of_encode {row : Nat} {args : List Operand} {i : Instr} (h : encode i = .call row args) :
    parseCall row args = .ok i := by
  cases i with
  | ppPack u c =>
    rw [encode, ← toNat_ppPack] at h
    cases h
    simp only [parseCall, oneWord, sized_toNat, ppGetUps_ppPack, ppGetCur_ppPack]
  | ivPack a d p c =>
    rw [encode, ← toNat_ivPack] at h
    cases h
    simp only [parseCall, oneWord, sized_toNat, ivGet_ivPack]
  | xchg x a =>
    cases h
    simp only [parseCall, parseXchg, sized_toNat]
  | le16Put _ _ x | expPut _ _ x | ivHp x | ppGetCur x | ppGetUps x | ivGet _ x | buildL1 _ _ x =>
    cases h
    exact sized_toNat x _
  | _ => cases h <;> rfl

/-- R102: a called row applies in every phase. -/
theorem selectedIn_of_encode_call {row : Nat} {args : List Operand} {i : Instr} (h : encode i = .call row args)
    (st : Phase) : i.selectedIn st = true := by
  cases i with
  | cmdTrade | cmdHelp | cmdNop | cmdWhileBusy | timeoutAny => cases h
  | hsMode | hsMaster | hsVersion | entropy | metadata | select | record | confirm => cases h
  | _ => rfl

/-- R121: a call decodes to exactly the well-formed operations whose encoding it is. -/
theorem decodeCall_eq_ok_iff {row : Nat} {args : List Operand} {i : Instr} :
    decodeCall row args = .ok i ↔ encode i = .call row args ∧ i.wf = true := by
  unfold decodeCall
  constructor
  · intro h
    split at h
    · next hp =>
      split at h
      · next hwf => cases h; exact ⟨encode_of_parseCall hp, hwf⟩
      · cases h
    · cases h
  · rintro ⟨he, hwf⟩
    simp only [parseCall_of_encode he, hwf, if_true]

/-! ### The decoder and the encoder -/

/-- What arrives decodes to an operation exactly when it is that operation's encoding and the operation is
well formed and selected in the phase. -/
theorem decode_eq_ok_iff {st : Phase} {x : Input} {i : Instr} :
    decode st x = .ok i ↔ encode i = x ∧ i.wf = true ∧ i.selectedIn st = true := by
  cases x with
  | host bytes => exact decodeHost_eq_ok_iff
  | answer a => exact decodeAnswer_eq_ok_iff
  | call row args =>
    rw [decode, decodeCall_eq_ok_iff]
    exact ⟨fun ⟨he, hwf⟩ => ⟨he, hwf, selectedIn_of_encode_call he st⟩, fun ⟨he, hwf, _⟩ => ⟨he, hwf⟩⟩
  | config c => exact ⟨nofun, fun ⟨he, _⟩ => absurd he (by cases i <;> nofun)⟩
  | reset => exact ⟨nofun, fun ⟨he, _⟩ => absurd he (by cases i <;> nofun)⟩

/-- Settles O40: one direction of `decode_eq_ok_iff`. -/
theorem decodeOfEncode : Obligations.DecodeOfEncode :=
  fun _ _ hwf hsel => decode_eq_ok_iff.mpr ⟨rfl, hwf, hsel⟩

/-- Settles O41: the other direction of `decode_eq_ok_iff`. -/
theorem encodeOfDecode : Obligations.EncodeOfDecode :=
  fun _ _ _ h => decode_eq_ok_iff.mp h

/-! ### What every byte decodes to (R81, R96, R97) -/

/-- Settles O37: `decodeCommand` on a block that accepts the byte, `CMD_WHILE_BUSY` on one that does not. -/
theorem commandByteDecoding : Obligations.CommandByteDecoding :=
  fun _ b => ⟨fun h => decodeHost_accepted h b, fun h => decodeHost_busy h b⟩

/-- R97(a): every command byte is an operation in every phase. -/
theorem exists_decode_host (st : Phase) (b : Byte) : ∃ i, decode st (.host [b]) = .ok i := by
  cases h : st.busy with
  | true => exact ⟨_, decodeHost_busy h b⟩
  | false => exact ⟨_, decodeHost_accepted h b⟩

/-- R97(c): every answer is an operation in every busy phase. -/
theorem exists_decode_answer {st : Phase} (h : st.busy = true) (a : Answer) : ∃ i, decode st (.answer a) = .ok i := by
  cases a with
  | timeout => exact ⟨_, decodeAnswer_timeout h⟩
  | byte rx =>
    cases st with
    | idle | complete | failed => cases h
    | _ => exact ⟨_, rfl⟩

/-- Settles O38: each byte decodes to something, and what decodes is well formed and selected
(`decode_eq_ok_iff`). -/
theorem noByteIsIllegal : Obligations.NoByteIsIllegal := by
  have legal {st : Phase} {x : Input} : (∃ i, decode st x = .ok i) →
      ∃ i, decode st x = .ok i ∧ i.wf = true ∧ i.selectedIn st = true :=
    fun ⟨i, h⟩ => ⟨i, h, (decode_eq_ok_iff.mp h).2⟩
  exact fun st b a => ⟨legal (exists_decode_host st b), fun h => legal (exists_decode_answer h a)⟩

/-- Settles O39: words with every bit written out, evaluated. -/
theorem sampleWordsDecode : Obligations.SampleWordsDecode := by
  unfold Obligations.SampleWordsDecode
  decide

end Sys2Proof

namespace Sys2Proof.Machine

/-! ### What the block transmits and decodes in each phase (R96) -/

/-- R185: where the entropy source names a byte, that byte is the fill. -/
theorem State.draw_eq {s : State} {b : Byte} (h : s.draws.head? = some b) : s.draw = b := by
  rw [State.draw, List.headD_eq_head?_getD, h, Option.getD_some]

/-- R146: what `META_OUT` of `OUT` shows is the metadata stream. -/
theorem metaOut_of_exec {s : State} {S M : List Byte} (h : exec (.metaOut S) s = .next (s.showing (.bytes M))) :
    M = metaOut s.params.layout S := by
  obtain ⟨-, hs⟩ := State.compute_next.mp (h :)
  have hd : some (Value.bytes M) = some (.bytes (metaOut s.params.layout S)) := congrArg State.datapath hs
  cases hd
  rfl

/-- Settles O29: `State.tx` and `decodeAnswer` phase by phase. -/
theorem wireBytesByPhase : Obligations.WireBytesByPhase := by
  intro s rx
  refine ⟨fun h => ?_, fun h => ?_, fun h => ?_, fun h => ?entropy, fun h => ?metadata, fun h => ?_, fun h => ?_,
    fun h => ?_, fun h => ?notBusy⟩
  case entropy =>
    have htx : s.tx = some s.draw := by simp only [State.tx, h]
    rw [htx, h]
    exact ⟨fun b hb => by rw [State.draw_eq hb], rfl, rfl⟩
  case metadata =>
    have htx : s.tx = some ((metaOut s.params.layout s.out.slot).getD s.idx 0) := by simp only [State.tx, h]
    rw [htx, h]
    exact ⟨fun M hM => by rw [metaOut_of_exec hM], rfl⟩
  case notBusy => rcases h with h | h | h <;> simp only [State.tx, h, true_and] <;> rfl
  all_goals
    simp only [State.tx, h, true_and]
    rfl

/-! ### The `FIELD` rows (R126, R132) -/

/-- R120: a codec operation on typed operands shows its result and changes nothing else. -/
theorem State.compute_showing {typed : Bool} (h : typed = true) (v : Value) (s : State) :
    s.compute typed v = .next (s.showing v) :=
  State.compute_next.mpr ⟨h, rfl⟩

theorem exec_row_eq_fieldGet (f : CoreField) (b : List Byte) (s : State) :
    exec (f.row b) s = exec (.fieldGet b f) s := by
  cases f <;> rfl

theorem ofNat_memRead_one (b : List Byte) (o : Nat) : BitVec.ofNat 8 (memRead b o 1) = b.getD o 0 := by
  simp [memRead]

theorem ofNat_memRead_two (b : List Byte) (o : Nat) : BitVec.ofNat 16 (memRead b o 2) = word16 b o := by
  simp [memRead, word16]

theorem ofNat_memRead_three (b : List Byte) (o : Nat) : BitVec.ofNat 24 (memRead b o 3) = word24 b o := by
  simp only [memRead, word24, Nat.add_assoc, Nat.reduceAdd]
  congr 1
  omega

/-- R126: under `LAYOUT_LIST` the row of a field of `n` bytes shows the `n` bytes from its listed offset. -/
theorem exec_row_layoutList {s : State} {b : List Byte} (hl : s.params.layout = layoutList)
    (hb : isCoreArray b = true) (f : CoreField) {n : Nat} (hn : f.bytes = n) {x : BitVec (8 * n)}
    (hx : BitVec.ofNat (8 * n) (memRead b (layoutList.off f) n) = x) :
    exec (f.row b) s = .next (s.showing (.bits (8 * n) x)) := by
  subst hn hx
  rw [exec_row_eq_fieldGet, ← hl]
  exact State.compute_showing hb _ s

/-- R126: the arrays a core field is read from have 44 or 62 bytes. -/
theorem isCoreArray_iff {b : List Byte} : isCoreArray b = true ↔ b.length = 44 ∨ b.length = 62 := by
  simp [isCoreArray, coreLen, slotLen]

/-- Settles O17: each row is `FIELD_GET` of its field, and shows as many bytes as the field has, from the
offset of the list. -/
theorem fieldRowsUnderLayoutList : Obligations.FieldRowsUnderLayoutList := by
  refine ⟨fun s b f => exec_row_eq_fieldGet f b s, fun s b hl hlen => ?_⟩
  have hb : isCoreArray b = true := isCoreArray_iff.mpr hlen
  have byte (f : CoreField) (hf : f.bytes = 1) := exec_row_layoutList hl hb f hf (ofNat_memRead_one b _)
  have half (f : CoreField) (hf : f.bytes = 2) := exec_row_layoutList hl hb f hf (ofNat_memRead_two b _)
  have triple (f : CoreField) (hf : f.bytes = 3) := exec_row_layoutList hl hb f hf (ofNat_memRead_three b _)
  exact ⟨byte .speciesId rfl, half .currentHp rfl, half .maxHp rfl, half .attack rfl, half .defense rfl,
    half .speed rfl, half .special rfl, byte .level rfl, byte .levelInBox rfl, byte .statusCondition rfl,
    byte .type1 rfl, byte .type2 rfl, byte .catchRateOrHeldItem rfl, byte .move1 rfl, byte .move2 rfl,
    byte .move3 rfl, byte .move4 rfl, byte .pp1 rfl, byte .pp2 rfl, byte .pp3 rfl, byte .pp4 rfl, half .otId rfl,
    triple .expPoints rfl, half .hpEv rfl, half .attackEv rfl, half .defenseEv rfl,
    half .speedEv rfl, half .specialEv rfl, half .ivData rfl⟩

/-- R132, R57: the name field `f` of a trailer. -/
theorem State.readName_trailer {T : List Byte} (hT : T.length = 18) (f : NameField) (s : State) :
    s.readName f T = .next (s.showing (.bytes (slice T f.trailerOff f.len))) := by
  rw [State.readName, if_neg (by rw [hT]; decide)]
  exact State.compute_showing (by simp [isTrailerArray, trailerLen, hT]) _ s

/-- R132, R51: the name field `f` of a slot. -/
theorem State.readName_slot {S : List Byte} (hS : S.length = 62) (f : NameField) (s : State) :
    s.readName f S = .next (s.showing (.bytes (slice S f.slotOff f.len))) := by
  rw [State.readName, if_pos (by rw [hS]; rfl)]
  exact State.compute_showing (by simp [isTrailerArray, slotLen, hS]) _ s

/-- A slice that ends where the array ends is all that stands from its offset. -/
theorem slice_to_end {b : List Byte} {a n : Nat} (h : b.length = a + n) : slice b a n = b.drop a :=
  List.take_of_length_le (by simp [h])

/-- Settles O18: the nickname is a slice of either array, the OT name the end of it. -/
theorem nameFieldRows : Obligations.NameFieldRows := by
  intro s
  refine ⟨fun T hT => ⟨State.readName_trailer hT .nickname s, ?_⟩, fun S hS => ⟨State.readName_slot hS .nickname s, ?_⟩⟩
  · rw [← slice_to_end (a := 11) (n := 7) hT]
    exact State.readName_trailer hT .otName s
  · rw [← slice_to_end (a := 55) (n := 7) hS]
    exact State.readName_slot hS .otName s

end Sys2Proof.Machine

/-! Proofs of the codec statements (spec/40_codec.md): serializers, field accessors, the core block, names,
trailer and slot, packed sub-fields, the builder and the metadata stream. -/

namespace Sys2Proof

/-! ### Field accessors (R126) -/

theorem byte_fieldGet (l : Layout) (b : List Byte) {f : CoreField} {k : Nat} (hk : k < f.bytes) :
    BitVec.ofNat 8 (fieldGet l b f / 256 ^ k) = b.getD (l.off f + k) 0 :=
  byte_of_memRead _ _ _ _ hk

@[simp] theorem length_fieldPut (l : Layout) (b : List Byte) (f : CoreField) (v : Nat) :
    (fieldPut l b f v).length = b.length :=
  length_memWrite _ _ _ _

section
variable {l : Layout} (hl : l.valid = true)
include hl

theorem getD_fieldPut {b : List Byte} (hb : coreLen ≤ b.length) {f : CoreField} (v : Nat) {k : Nat} (hk : k < f.bytes) :
    (fieldPut l b f v).getD (l.off f + k) 0 = BitVec.ofNat 8 (v / 256 ^ k) :=
  getD_memWrite_in _ _ _ _ _ hk ((Layout.end_le hl f).trans hb)

theorem fieldGet_fieldPut_same {b : List Byte} (hb : coreLen ≤ b.length) {f : CoreField} {v : Nat}
    (hv : v < 2 ^ f.width) : fieldGet l (fieldPut l b f v) f = v := by
  rw [f.two_pow_width] at hv
  rw [fieldGet, memRead_of_bytes fun _ => getD_fieldPut hl hb v, Nat.mod_eq_of_lt hv]

/-- R126: the ranges of a valid layout are disjoint, so writing one field leaves the others. -/
theorem fieldGet_fieldPut_ne (b : List Byte) {f g : CoreField} (hgf : g ≠ f) (v : Nat) :
    fieldGet l (fieldPut l b f v) g = fieldGet l b g := by
  refine memRead_congr fun k hk => getD_memWrite_out _ _ _ _ _ ?_
  have := Layout.apart hl hgf
  omega

/-- In a valid layout the 29 fields hold every byte of a core block. -/
theorem eq_of_fieldGet_eq {b c : List Byte} (hb : b.length = coreLen) (hc : c.length = coreLen)
    (h : ∀ f, fieldGet l b f = fieldGet l c f) : b = c := by
  refine bytes_ext (hb.trans hc.symm) fun a ha => ?_
  obtain ⟨f, k, hk, rfl⟩ := Layout.cover hl (hb ▸ ha)
  rw [← byte_fieldGet l b hk, h, byte_fieldGet l c hk]

/-! ### The core block (R127 to R129) -/

/-- Putting the fields of a list one after the other sets those fields and leaves the others. -/
theorem fieldGet_foldl_fieldPut (r : CoreRecord) (f : CoreField) (fs : List CoreField) {b : List Byte}
    (hb : coreLen ≤ b.length) :
    fieldGet l (fs.foldl (fun b g => fieldPut l b g (r.val g)) b) f = if f ∈ fs then r.val f else fieldGet l b f := by
  induction fs generalizing b with
  | nil => rfl
  | cons g gs ih =>
    rw [List.foldl_cons, ih (by simpa using hb)]
    by_cases hfg : f = g
    · subst hfg
      simp [fieldGet_fieldPut_same hl hb (r.val_lt f)]
    · simp [hfg, fieldGet_fieldPut_ne hl b hfg]

theorem fieldGet_encCore (r : CoreRecord) (f : CoreField) : fieldGet l (encCore l r) f = r.val f := by
  rw [encCore, fieldGet_foldl_fieldPut hl r f _ (by simp), if_pos f.mem_all]

theorem getD_encCore (r : CoreRecord) {f : CoreField} {k : Nat} (hk : k < f.bytes) :
    (encCore l r).getD (l.off f + k) 0 = BitVec.ofNat 8 (r.val f / 256 ^ k) := by
  rw [← byte_fieldGet l _ hk, fieldGet_encCore hl]

/-- A record whose fields consist of one byte encodes to that byte throughout. -/
theorem encCore_eq_replicate {r : CoreRecord} {x : Byte}
    (h : ∀ f k, k < CoreField.bytes f → BitVec.ofNat 8 (r.val f / 256 ^ k) = x) :
    encCore l r = List.replicate coreLen x := by
  refine bytes_ext (by simp) fun a ha => ?_
  rw [length_encCore] at ha
  obtain ⟨f, k, hk, rfl⟩ := Layout.cover hl ha
  rw [getD_encCore hl r hk, h f k hk, List.getD_replicate _ ha]

end

@[simp] theorem val_decCore (l : Layout) (b : List Byte) (f : CoreField) : (decCore l b).val f = fieldGet l b f := by
  rw [decCore, CoreRecord.val_ofVal, Nat.mod_eq_of_lt (fieldGet_lt l b f)]

theorem decCore_encCore {l : Layout} (hl : l.valid = true) (r : CoreRecord) : decCore l (encCore l r) = r :=
  CoreRecord.ext_val fun f => by rw [val_decCore, fieldGet_encCore hl]

theorem encCore_decCore {l : Layout} (hl : l.valid = true) {b : List Byte} (hb : b.length = coreLen) :
    encCore l (decCore l b) = b :=
  eq_of_fieldGet_eq hl (length_encCore _ _) hb fun f => by rw [fieldGet_encCore hl, val_decCore]

theorem fieldGet_replicate_zero (l : Layout) (n : Nat) (f : CoreField) : fieldGet l (List.replicate n 0) f = 0 := by
  rw [fieldGet, memRead_of_bytes (v := 0), Nat.zero_mod]
  simp

/-- Every byte of the largest value of a field is 0xFF. -/
theorem byte_of_max (f : CoreField) {k : Nat} (hk : k < f.bytes) :
    BitVec.ofNat 8 ((2 ^ f.width - 1) / 256 ^ k) = 0xFF := by
  have hmax : ∀ n ≤ 3, ∀ k < n, BitVec.ofNat 8 ((256 ^ n - 1) / 256 ^ k) = 0xFF := by decide
  rw [f.two_pow_width]
  exact hmax f.bytes (by cases f <;> decide) k hk

/-! ### Names (R130, R137) -/

/-- R87: the slot lengths of the two name fields. -/
theorem NameField.eq_len {f : NameField} {L : Nat} (h : (f, L) ∈ [(NameField.nickname, 11), (.otName, 7)]) :
    L = f.len ∧ 0 < L := by
  cases f <;> simp_all [NameField.len, nickLen, otNameLen]

theorem getD_padString (c : List Byte) {L i : Nat} (hi : i < L) :
    (padString c L).getD i 0 = if i < min c.length (L - 1) then c.getD i 0 else sentinel := by
  have hlen : (c.take (min c.length (L - 1))).length = min c.length (L - 1) := by simp
  rw [padString]
  split
  · next h =>
    rw [List.getD_append _ _ _ _ (by rwa [hlen])]
    simp only [List.getD_eq_getElem?_getD, List.getElem?_take_of_lt h]
  · next h =>
    rw [List.getD_append_right _ _ _ _ (by omega), List.getD_replicate _ (by omega)]

theorem getLast?_padString (c : List Byte) {L : Nat} (hL : 0 < L) : (padString c L).getLast? = some sentinel := by
  rw [padString, List.getLast?_append, List.getLast?_replicate, if_neg (by omega), Option.some_or]

theorem content_eq_take (F : List Byte) : content F = F.take (F.findIdx (· == sentinel)) := by
  simp only [content, List.takeWhile_eq_take_findIdx_not, bne, Bool.not_not]

/-- What is kept of an empty content, or of one that begins with a sentinel, begins with a sentinel once padded. -/
theorem head?_take_append_replicate {d : List Byte} (hd : d = [] ∨ d.head? = some sentinel) (m : Nat) {j : Nat}
    (hj : 0 < j) : (d.take m ++ List.replicate j sentinel).head? = some sentinel := by
  rw [List.head?_append, List.head?_replicate, if_neg (by omega), List.head?_take]
  rcases hd with rfl | hd
  · simp
  · rw [hd]
    split <;> rfl

/-- R281: of a padded content, what stands before its first sentinel comes back if it fits. -/
theorem content_padString {c d : List Byte} {L : Nat} (hL : 0 < L) (hlen : c.length ≤ L - 1)
    (hc : ∀ x ∈ c, x ≠ sentinel) (hd : d = [] ∨ d.head? = some sentinel) : content (padString (c ++ d) L) = c := by
  rw [padString, List.take_append, List.take_of_length_le (by simp; omega), List.append_assoc]
  obtain ⟨rest, hrest⟩ := List.head?_eq_some_iff.mp
    (head?_take_append_replicate hd (min (c ++ d).length (L - 1) - c.length)
      (show 0 < L - min (c ++ d).length (L - 1) by omega))
  rw [hrest, content, List.takeWhile_append_of_pos (by simpa using hc), List.takeWhile_cons_of_neg (by simp),
    List.append_nil]

/-! ### Trailer and slot (R131, R132, R138) -/

theorem decNickname_encTrailer {r : PartyRecord} (h : r.wf = true) : decNickname (encTrailer r) = r.nickname :=
  List.take_left' (PartyRecord.wf_iff.mp h).1

theorem decOtName_eq_drop {T : List Byte} (h : T.length = trailerLen) : decOtName T = T.drop nickLen :=
  List.take_of_length_le (by simp [h, trailerLen, nickLen, otNameLen])

theorem decOtName_encTrailer {r : PartyRecord} (h : r.wf = true) : decOtName (encTrailer r) = r.otName := by
  rw [decOtName_eq_drop (length_encTrailer h)]
  exact List.drop_left' (PartyRecord.wf_iff.mp h).1

theorem encTrailer_dec {T : List Byte} (h : T.length = trailerLen) {r : PartyRecord} (hn : r.nickname = decNickname T)
    (ho : r.otName = decOtName T) : encTrailer r = T := by
  rw [encTrailer, hn, ho, decOtName_eq_drop h]
  exact List.take_append_drop nickLen T

theorem wf_of_dec {T : List Byte} (h : T.length = trailerLen) {r : PartyRecord} (hn : r.nickname = decNickname T)
    (ho : r.otName = decOtName T) : r.wf = true := by
  simp [PartyRecord.wf_iff, hn, ho, decNickname, decOtName, h, trailerLen, nickLen, otNameLen]

/-- R138: the first 44 bytes of a slot are its core block. -/
theorem take_encSlot (l : Layout) (r : PartyRecord) : (encSlot l r).take coreLen = encCore l r.core :=
  List.take_left' (length_encCore _ _)

/-- R138: the rest of a slot is its trailer. -/
theorem drop_encSlot (l : Layout) (r : PartyRecord) : (encSlot l r).drop coreLen = encTrailer r :=
  List.drop_left' (length_encCore _ _)

/-- A slot's trailer is all that follows its core block. -/
theorem slice_trailer {S : List Byte} (h : S.length = slotLen) : slice S coreLen trailerLen = S.drop coreLen :=
  List.take_of_length_le (by simp [h, slotLen, coreLen, trailerLen])

theorem decSlot_encSlot {l : Layout} (hl : l.valid = true) {r : PartyRecord} (h : r.wf = true) :
    decSlot l (encSlot l r) = r := by
  have hc : slice (encSlot l r) 0 coreLen = encCore l r.core := take_encSlot l r
  simp only [decSlot, hc, slice_trailer (length_encSlot l h), drop_encSlot, decCore_encCore hl,
    decNickname_encTrailer h, decOtName_encTrailer h]

theorem length_slice_trailer {S : List Byte} (h : S.length = slotLen) :
    (slice S coreLen trailerLen).length = trailerLen := by
  simp [h, slotLen, coreLen, trailerLen]

theorem wf_decSlot (l : Layout) {S : List Byte} (h : S.length = slotLen) : (decSlot l S).wf = true :=
  wf_of_dec (length_slice_trailer h) rfl rfl

theorem encSlot_decSlot {l : Layout} (hl : l.valid = true) {S : List Byte} (h : S.length = slotLen) :
    encSlot l (decSlot l S) = S := by
  have hc : encCore l (decSlot l S).core = S.take coreLen :=
    encCore_decCore hl (by simp [h, slotLen, coreLen])
  rw [encSlot, hc, encTrailer_dec (length_slice_trailer h) rfl rfl, slice_trailer h]
  exact List.take_append_drop coreLen S

/-! ### Word serializers (R123, R125) -/

theorem ofNat_div_two_pow {w : Nat} (v : BitVec w) (k : Nat) : BitVec.ofNat 8 (v.toNat / 2 ^ k) = v.extractLsb' k 8 := by
  rw [← Nat.shiftRight_eq_div_pow]
  rfl

theorem le16Put_eq_set (b : List Byte) (o : Nat) (v : Half) :
    le16Put b o v = (b.set o (v.extractLsb' 0 8)).set (o + 1) (v.extractLsb' 8 8) := by
  simp only [← ofNat_div_two_pow]
  simp [le16Put, memWrite]

theorem expPut_eq_set (b : List Byte) (o : Nat) (v : Triple) :
    expPut b o v =
      ((b.set o (v.extractLsb' 0 8)).set (o + 1) (v.extractLsb' 8 8)).set (o + 2) (v.extractLsb' 16 8) := by
  simp only [← ofNat_div_two_pow]
  simp [expPut, memWrite, Nat.div_div_eq_div_mul]

/-! ### Packed sub-fields (R133 to R140) -/

theorem ofNat_eq_ppPack (u : BitVec 2) (c : BitVec 6) : BitVec.ofNat 8 (64 * u.toNat + c.toNat) = ppPack u c := by
  rw [← toNat_ppPack, BitVec.ofNat_toNat, BitVec.setWidth_eq]

theorem ofNat_eq_ppGetCur (b : Byte) : BitVec.ofNat 6 (b.toNat % 64) = ppGetCur b := by
  apply BitVec.eq_of_toNat_eq
  simp [ppGetCur]

theorem ofNat_eq_ppGetUps (b : Byte) : BitVec.ofNat 2 (b.toNat / 64) = ppGetUps b := by
  apply BitVec.eq_of_toNat_eq
  simp [ppGetUps, Nat.shiftRight_eq_div_pow]

theorem ofNat_eq_ivPack (a d p c : BitVec 4) :
    BitVec.ofNat 16 (4096 * a.toNat + 256 * d.toNat + 16 * p.toNat + c.toNat) = ivPack a d p c := by
  rw [← toNat_ivPack, BitVec.ofNat_toNat, BitVec.setWidth_eq]

/-- R139 (D2): the four nibbles in numbers. -/
theorem ofNat_eq_ivGet (w : Half) :
    BitVec.ofNat 4 (w.toNat / 4096) = ivGet .attack w ∧ BitVec.ofNat 4 (w.toNat / 256 % 16) = ivGet .defense w ∧
    BitVec.ofNat 4 (w.toNat / 16 % 16) = ivGet .speed w ∧ BitVec.ofNat 4 (w.toNat % 16) = ivGet .special w := by
  obtain ⟨ha, hd, hp, hc⟩ := toNat_ivGet w
  refine ⟨?_, ?_, ?_, ?_⟩ <;> apply BitVec.eq_of_toNat_eq <;> simp [*]

/-- R133 (D3): the HP value has the low bits of the four nibbles, in listed order. -/
theorem toNat_ivHp (w : Half) : (ivHp w).toNat =
    8 * (w.toNat / 4096 % 2) + 4 * (w.toNat / 256 % 2) + 2 * (w.toNat / 16 % 2) + w.toNat % 2 := by
  simp only [ivHp, toNat_append_eq_add, BitVec.extractLsb'_toNat, Nat.shiftRight_eq_div_pow, Nat.reducePow,
    Nat.div_one]
  omega

theorem ofNat_eq_ivHp (w : Half) : BitVec.ofNat 4
    (8 * (w.toNat / 4096 % 2) + 4 * (w.toNat / 256 % 2) + 2 * (w.toNat / 16 % 2) + w.toNat % 2) = ivHp w := by
  rw [← toNat_ivHp, BitVec.ofNat_toNat, BitVec.setWidth_eq]

theorem ofNat_eq_ivHp_ivPack (a d p c : BitVec 4) :
    BitVec.ofNat 4 (8 * (a.toNat % 2) + 4 * (d.toNat % 2) + 2 * (p.toNat % 2) + c.toNat % 2) =
      ivHp (ivPack a d p c) := by
  obtain ⟨ha, hd, hp, hc⟩ := toNat_ivGet (ivPack a d p c)
  simp only [ivGet_ivPack] at ha hd hp hc
  have hmod (n : Nat) : n % 16 % 2 = n % 2 := Nat.mod_mod_of_dvd n (by decide)
  rw [← ofNat_eq_ivHp, ha, hd, hp, hc, hmod, hmod, hmod, hmod]

/-- R145: PP without PP-Ups is the count itself. -/
theorem ppPack_zero (c : BitVec 6) : ppPack 0 c = BitVec.ofNat 8 c.toNat := by
  rw [← ofNat_eq_ppPack]
  simp

end Sys2Proof

namespace Sys2Proof.Machine

/-! ### The metadata stream (R146) -/

theorem length_metaOut (l : Layout) {S : List Byte} (h : S.length = slotLen) : (metaOut l S).length = metaLen := by
  simp [metaOut, h, slotLen, coreLen, trailerLen, otNameLen, nickLen, NameField.slotOff, NameField.trailerOff, metaLen]

/-- R146: the stream is the OT name, the party size, the species and the trailer. -/
theorem metaOut_eq (l : Layout) (S : List Byte) :
    metaOut l S = slice S 55 7 ++ ([0x01, S.getD (l.off .speciesId) 0] ++ slice S 44 18) := by
  rw [metaOut, fieldGet, CoreField.bytes, ofNat_memRead_one, List.append_assoc, List.append_assoc]
  rfl

/-! ### The codec as a whole (R120, R121) -/

/-- R120, R121: the operation puts out one value, a function of its operands and the block's parameters, if
its operands are typed, and is refused if they are not. -/
def Computes (i : Instr) (value : Params → Value) : Prop :=
  ∀ s : State, exec i s = s.compute i.wf (value s.params)

/-- An operation that reads a core field of typed operands computes its value. -/
theorem exists_computes_of_readField {i : Instr} {f : CoreField} {b : List Byte}
    (h : ∀ s, exec i s = s.readField f b) (hwf : i.wf = isCoreArray b) : ∃ value, Computes i value :=
  ⟨fun p => .bits f.width (BitVec.ofNat f.width (fieldGet p.layout b f)), fun s => by rw [h, hwf, State.readField]⟩

/-- The rows of the codec family, those that read the block's layout one by one. -/
theorem exists_computes {i : Instr} (h : i.isCodec = true) : ∃ value, Computes i value := by
  cases i with
  | cmdTrade | cmdHelp | cmdNop | cmdWhileBusy | configure | xchg => cases h
  | hsMode | hsMaster | hsVersion | entropy | metadata | select | record | confirm | timeoutAny => cases h
  | fieldPut b f v => exact ⟨fun p => .bytes (fieldPut p.layout b f v), fun _ => rfl⟩
  | encCore r => exact ⟨fun p => .bytes (encCore p.layout r.core), fun _ => rfl⟩
  | decCore b => exact ⟨fun p => .core (decCore p.layout b), fun _ => rfl⟩
  | encSlot r => exact ⟨fun p => .bytes (encSlot p.layout r), fun _ => rfl⟩
  | decSlot b => exact ⟨fun p => .record (decSlot p.layout b), fun _ => rfl⟩
  | metaOut b => exact ⟨fun p => .bytes (metaOut p.layout b), fun _ => rfl⟩
  | le16Get | le16Put | expGet | expPut | padString | setName | encTrailer | decTrailer | content =>
    exact ⟨fun _ => _, fun _ => rfl⟩
  | ivHp | ppPack | ppGetCur | ppGetUps | ivGet | ivPack | buildL1 | fieldNickname | fieldOtName =>
    exact ⟨fun _ => _, fun _ => rfl⟩
  | _ => exact exists_computes_of_readField (fun _ => rfl) rfl

/-- Settles O19: typed operands, so the value is put out. -/
theorem codecIsTotalAndPure : Obligations.CodecIsTotalAndPure := by
  intro i hi hwf
  obtain ⟨value, h⟩ := exists_computes hi
  exact ⟨value, fun s => (h s).trans (State.compute_showing hwf _ s)⟩

/-- Settles O20: the same operations on operands that are not typed. -/
theorem codecRefusesUntypedOperands : Obligations.CodecRefusesUntypedOperands := by
  intro i hi hwf s
  obtain ⟨value, h⟩ := exists_computes hi
  rw [h, hwf]
  rfl

/-! ### The codec's operations on typed operands -/

/-- Settles O1: the row shows `memRead` of two bytes. -/
theorem le16GetAssemblesLowByteFirst : Obligations.Le16GetAssemblesLowByteFirst := by
  intro s b o h
  rw [← ofNat_memRead_two]
  exact State.compute_showing (decide_eq_true h) _ s

/-- Settles O2: `memWrite` of two bytes is two list sets. -/
theorem le16PutWritesTwoBytes : Obligations.Le16PutWritesTwoBytes := by
  intro s b o v h
  rw [← le16Put_eq_set]
  exact State.compute_showing (decide_eq_true h) _ s

/-- Settles O3: the row shows `memRead` of three bytes. -/
theorem expGetAssemblesThreeBytes : Obligations.ExpGetAssemblesThreeBytes := by
  intro s b o h
  rw [← ofNat_memRead_three]
  exact State.compute_showing (decide_eq_true h) _ s

/-- Settles O4: `memWrite` of three bytes is three list sets. -/
theorem expPutWritesThreeBytes : Obligations.ExpPutWritesThreeBytes := by
  intro s b o v h
  rw [← expPut_eq_set]
  exact State.compute_showing (decide_eq_true h) _ s

theorem exec_fieldGet {b : List Byte} (hb : isCoreArray b = true) (f : CoreField) (s : State) :
    exec (.fieldGet b f) s =
      .next (s.showing (.bits f.width (BitVec.ofNat f.width (fieldGet s.params.layout b f)))) :=
  State.compute_showing hb _ s

/-- Settles O5: the four laws of `fieldGet` and `fieldPut`, on arrays that both accept. -/
theorem fieldAccessorsReadAndWriteOneField : Obligations.FieldAccessorsReadAndWriteOneField := by
  intro s b f v hl hlen hv
  have hb : isCoreArray b = true := isCoreArray_iff.mpr hlen
  have hcore : coreLen ≤ b.length := by simp only [coreLen]; omega
  have hc : isCoreArray (fieldPut s.params.layout b f v) = true := by rwa [isCoreArray, length_fieldPut]
  refine ⟨⟨_, exec_fieldGet hb f s, fun k hk => ?_⟩, _,
    State.compute_showing (by simp [hb, hv]) _ s, length_fieldPut _ _ _ _, fun k hk => getD_fieldPut hl hcore v hk,
    fun a ha => getD_memWrite_out _ _ _ _ _ ha, ?_, fun g hg => ?_⟩
  · rw [BitVec.toNat_ofNat, Nat.mod_eq_of_lt (fieldGet_lt _ _ _), byte_fieldGet _ _ hk]
  · rw [exec_fieldGet hc, fieldGet_fieldPut_same hl hcore hv]
  · rw [exec_fieldGet hc, exec_fieldGet hb, fieldGet_fieldPut_ne hl b hg]

theorem exec_encCore {r : PartyRecord} (h : r.wf = true) (s : State) :
    exec (.encCore r) s = .next (s.showing (.bytes (encCore s.params.layout r.core))) :=
  State.compute_showing h _ s

theorem exec_decCore {B : List Byte} (h : B.length = 44) (s : State) :
    exec (.decCore B) s = .next (s.showing (.core (decCore s.params.layout B))) :=
  State.compute_showing (beq_iff_eq.mpr h) _ s

/-- Settles O6: `getD_encCore`, and the two records whose fields consist of one byte. -/
theorem encCorePlacesEveryField : Obligations.EncCorePlacesEveryField := by
  intro s r hl h
  refine ⟨_, exec_encCore h s, length_encCore _ _, fun f k hk => getD_encCore hl _ hk, fun h0 => ?_, fun hmax => ?_⟩
  · refine encCore_eq_replicate hl fun f k _ => ?_
    rw [h0, Nat.zero_div]
    rfl
  · exact encCore_eq_replicate hl fun f k hk => by rw [hmax, byte_of_max f hk]

/-- Settles O7: a decoded field is what `FIELD_GET` reads. -/
theorem decCoreReadsEveryField : Obligations.DecCoreReadsEveryField := by
  intro s B h
  refine ⟨_, exec_decCore h s, fun f k hk => ?_, ?_⟩
  · rw [val_decCore, byte_fieldGet _ _ hk]
  · rintro rfl f
    rw [val_decCore, fieldGet_replicate_zero]

/-- Settles O8: `decCore_encCore` and `encCore_decCore`. -/
theorem coreCodecRoundTrips : Obligations.CoreCodecRoundTrips := by
  intro s hl
  refine ⟨fun r h => ⟨_, length_encCore _ _, exec_encCore h s, ?_⟩, fun B hB => ⟨_, exec_decCore hB s, ?_⟩⟩
  · rw [exec_decCore (length_encCore _ _), decCore_encCore hl]
  · intro r h hr
    rw [exec_encCore h, hr, encCore_decCore hl hB]

theorem exec_padString (c : List Byte) (f : NameField) (s : State) :
    exec (.padString c f) s = .next (s.showing (.bytes (padString c f.len))) :=
  State.compute_showing rfl _ s

/-- Settles O9: `length_padString`, `getD_padString` and `getLast?_padString`. -/
theorem padStringTruncatesAndPads : Obligations.PadStringTruncatesAndPads := by
  intro s c f L hf
  obtain ⟨rfl, hL⟩ := NameField.eq_len hf
  exact ⟨_, exec_padString c f s, length_padString _ _, fun i hi => getD_padString c hi, getLast?_padString c hL⟩

theorem exec_content {F : List Byte} (h : F.length = 11 ∨ F.length = 7) (s : State) :
    exec (.content F) s = .next (s.showing (.bytes (content F))) :=
  State.compute_showing (by simpa [nickLen, otNameLen] using h) _ s

/-- Settles O10: the cut is at the first sentinel; in a padded content that is where `c` ends. -/
theorem contentStopsAtFirstSentinel : Obligations.ContentStopsAtFirstSentinel := by
  constructor
  · intro s F hF
    refine ⟨F.findIdx (· == sentinel), List.findIdx_le_length, ?_, fun i hi => ?_, fun hk => ?_⟩
    · rw [exec_content hF, content_eq_take]
    · rw [List.getD_eq_getElem _ _ (hi.trans_le List.findIdx_le_length)]
      exact beq_eq_false_iff_ne.mp (List.not_of_lt_findIdx hi)
    · rw [List.getD_eq_getElem _ _ hk]
      exact beq_iff_eq.mp (List.findIdx_getElem (w := hk))
  · intro s c d f L hf hlen hc hd
    obtain ⟨rfl, hL⟩ := NameField.eq_len hf
    refine ⟨_, exec_padString _ _ _, ?_⟩
    rw [exec_content (by cases f <;> simp [NameField.len, nickLen, otNameLen]), content_padString hL hlen hc hd]

theorem exec_encTrailer {r : PartyRecord} (h : r.wf = true) (s : State) :
    exec (.encTrailer r) s = .next (s.showing (.bytes (encTrailer r))) :=
  State.compute_showing h _ s

theorem exec_decTrailer {T : List Byte} (h : T.length = 18) (s : State) :
    exec (.decTrailer T) s = .next (s.showing (.names (decNickname T) (decOtName T))) :=
  State.compute_showing (beq_iff_eq.mpr h) _ s

/-- Settles O11: the names are the two parts of the trailer. -/
theorem trailerCodecRoundTrips : Obligations.TrailerCodecRoundTrips := by
  refine ⟨fun s r h => ⟨exec_encTrailer h s, ?_, fun c => ?_⟩, fun s T hT => ⟨?_, fun r hn ho => ?_⟩⟩
  · rw [← encTrailer, exec_decTrailer (length_encTrailer h), decNickname_encTrailer h, decOtName_encTrailer h]
  · exact ⟨State.compute_showing h _ s, State.compute_showing h _ s⟩
  · rw [exec_decTrailer hT, decOtName_eq_drop hT]
    rfl
  · rw [← nickLen, ← decOtName_eq_drop hT] at ho
    rw [exec_encTrailer (wf_of_dec hT hn ho), encTrailer_dec hT hn ho]

theorem exec_encSlot {r : PartyRecord} (h : r.wf = true) (s : State) :
    exec (.encSlot r) s = .next (s.showing (.bytes (encSlot s.params.layout r))) :=
  State.compute_showing h _ s

theorem exec_decSlot {S : List Byte} (h : S.length = 62) (s : State) :
    exec (.decSlot S) s = .next (s.showing (.record (decSlot s.params.layout S))) :=
  State.compute_showing (beq_iff_eq.mpr h) _ s

/-- Settles O12: `decSlot_encSlot` and `encSlot_decSlot`. -/
theorem slotCodecRoundTrips : Obligations.SlotCodecRoundTrips := by
  intro s hl
  constructor
  · intro r h
    have hlen := length_encSlot s.params.layout h
    refine ⟨_, hlen, exec_encSlot h s, ?_, ?_, ?_⟩
    · rw [exec_encCore h, ← take_encSlot, coreLen]
    · rw [exec_encTrailer h, ← drop_encSlot s.params.layout r, coreLen]
    · rw [exec_decSlot hlen, decSlot_encSlot hl h]
  · intro S hS
    have hwf := wf_decSlot s.params.layout hS
    exact ⟨_, hwf, exec_decSlot hS s, by rw [exec_encSlot hwf, encSlot_decSlot hl hS]⟩

theorem exec_ppPack (u : BitVec 2) (c : BitVec 6) (s : State) :
    exec (.ppPack u c) s = .next (s.showing (.bits 8 (ppPack u c))) :=
  State.compute_showing rfl _ s

theorem exec_ppGetCur (b : Byte) (s : State) : exec (.ppGetCur b) s = .next (s.showing (.bits 6 (ppGetCur b))) :=
  State.compute_showing rfl _ s

theorem exec_ppGetUps (b : Byte) (s : State) : exec (.ppGetUps b) s = .next (s.showing (.bits 2 (ppGetUps b))) :=
  State.compute_showing rfl _ s

/-- Settles O13: in numbers, the packing, the getters and their round trips. -/
theorem ppByteIsSixtyFourUpsPlusCur : Obligations.PpByteIsSixtyFourUpsPlusCur := by
  intro s u c b
  rw [ofNat_eq_ppPack, ofNat_eq_ppGetCur, ofNat_eq_ppGetUps]
  refine ⟨exec_ppPack u c s, exec_ppGetCur b s, exec_ppGetUps b s, ?_, ?_, ?_⟩
  · rw [exec_ppPack, ppPack_ppGet]
  · rw [exec_ppGetUps, ppGetUps_ppPack]
  · rw [exec_ppGetCur, ppGetCur_ppPack]

theorem exec_ivGet (which : IvName) (w : Half) (s : State) :
    exec (.ivGet which w) s = .next (s.showing (.bits 4 (ivGet which w))) :=
  State.compute_showing rfl _ s

/-- Settles O14: in numbers, the packing, the getters and the HP value. -/
theorem ivWordHoldsFourNibbles : Obligations.IvWordHoldsFourNibbles := by
  intro s a d p c w
  obtain ⟨ha, hd, hp, hc⟩ := ofNat_eq_ivGet w
  rw [ofNat_eq_ivPack, ofNat_eq_ivHp, ofNat_eq_ivHp_ivPack, ha, hd, hp, hc]
  exact ⟨State.compute_showing rfl _ s, exec_ivGet _ w s, exec_ivGet _ w s, exec_ivGet _ w s, exec_ivGet _ w s,
    State.compute_showing rfl _ s, State.compute_showing rfl _ s⟩

/-- Settles O15: the fields are read off the record `buildL1` writes; a PP byte holds no PP-Ups. -/
theorem builderFillsEveryField : Obligations.BuilderFillsEveryField := by
  intro s tpl name id
  refine ⟨_, State.compute_showing rfl _ s, wf_buildL1 _ _ _, ?_⟩
  simp only [buildL1, ppPack_zero, nickLen, otNameLen, and_self]

/-- Settles O16: an offset below 7 is in the OT name, one from 9 on is in the trailer. -/
theorem metadataStreamLayout : Obligations.MetadataStreamLayout := by
  intro s S hS
  refine ⟨_, State.compute_showing (beq_iff_eq.mpr hS) _ s, length_metaOut _ hS, ?_⟩
  rw [metaOut_eq]
  have hlen : (slice S 55 7).length = 7 := by simp [hS]
  refine ⟨fun i hi => ?_, ?_, ?_, fun i hlo hhi => ?_⟩
  · rw [List.getD_append _ _ _ _ (by omega), getD_slice _ _ _ _ hi]
  · rw [List.getD_append_right _ _ _ _ (by omega), hlen]
    rfl
  · rw [List.getD_append_right _ _ _ _ (by omega), hlen]
    rfl
  · rw [List.getD_append_right _ _ _ _ (by omega), hlen, List.getD_append_right _ _ _ _ (by simp; omega),
      getD_slice _ _ _ _ (by simp; omega)]
    congr 1
    simp only [List.length_cons, List.length_nil]
    omega

end Sys2Proof.Machine

/-! Proofs of the transport statements (spec/41_transport.md): the exchange is the engine step on its answer,
a busy block takes that step whatever the answer is, and `CONFIGURE`. -/

namespace Sys2Proof.Machine

/-! ### The exchange (R162, R163, R180) -/

/-- R162: a block that has an exchange to issue is busy. -/
theorem State.busy_of_tx {s : State} {tx : Byte} (h : s.tx = some tx) : s.st.busy = true := by
  rw [← State.tx_isSome, h]
  rfl

/-- R163: a busy block has an exchange to issue. -/
theorem State.exists_tx_of_busy {s : State} (hb : s.st.busy = true) : ∃ tx, s.tx = some tx :=
  Option.isSome_iff_exists.mp (s.tx_isSome.trans hb)

/-- R162: the exchange with the byte of the phase is the rule of the phase on its answer. -/
theorem exec_xchg_of_tx {s : State} {tx : Byte} (h : s.tx = some tx) (ans : Answer) :
    exec (.xchg tx ans) s = s.answered ans :=
  if_pos h

/-- R96, R180: what an answer decodes to in a busy block is an operation, and runs the rule of the phase. -/
theorem exists_decode_answer {s : State} (hb : s.st.busy = true) (ans : Answer) :
    ∃ op : Instr, decode s.st (.answer ans) = .ok op ∧ exec op s = s.answered ans := by
  unfold State.answered
  cases hs : s.st
  case idle | complete | failed => rw [hs] at hb; cases hb
  all_goals cases ans <;> exact ⟨_, rfl, rfl⟩

/-- R180: the engine step of a busy block is the rule of its phase on the answer. -/
theorem State.linkStep_of_busy {s : State} (hb : s.st.busy = true) (ans : Answer) :
    s.linkStep ans = s.answered ans := by
  obtain ⟨op, hd, he⟩ := exists_decode_answer hb ans
  rw [State.linkStep, hd]
  exact he

/-! ### The rule of a phase takes place, with one exchange (R163, R180) -/

/-- The outcome is a next state, reached with one exchange: `tx` out, `ans` in. -/
def State.Exchanges (s : State) (tx : Byte) (ans : Answer) (o : Host.Outcome State Fault Refusal) : Prop :=
  ∃ t, o = .next t ∧ t.wire = s.wire ++ [⟨tx, ans⟩]

/-- The wire carries nothing in a handshake sub-step but the exchange before it. -/
theorem State.handshake_wire {code rx : Byte} {next : State → State} (hn : ∀ u, (next u).wire = u.wire) (s : State) :
    (s.handshake code rx next).wire = s.wire := by
  rcases State.handshake_cases code rx next s with ⟨_, e⟩ | ⟨_, _, e⟩ | ⟨_, _, e⟩ <;> rw [e]
  · exact hn _
  · rfl
  · rfl

/-- A handshake sub-step in its phase. -/
theorem State.exchanges_handshake {p : Prop} [Decidable p] {s : State} (hp : p) (code rx : Byte)
    {next : State → State} (hn : ∀ u, (next u).wire = u.wire) {r : Refusal} :
    s.Exchanges code (.byte rx)
      (if p then .next ((s.exchanged code (.byte rx)).handshake code rx next) else .refused r) :=
  ⟨_, if_pos hp, State.handshake_wire hn _⟩

/-- A step in its phase that goes one of two ways after the exchange. -/
theorem State.exchanges_branch {p c : Prop} [Decidable p] [Decidable c] {s a b : State} {tx : Byte} {ans : Answer}
    (hp : p) (ha : a.wire = s.wire ++ [⟨tx, ans⟩]) (hb : b.wire = s.wire ++ [⟨tx, ans⟩]) {r : Refusal} :
    s.Exchanges tx ans (if p then if c then .next a else .next b else .refused r) := by
  rw [if_pos hp]
  split
  · exact ⟨a, rfl, ha⟩
  · exact ⟨b, rfl, hb⟩

/-- R190: any exchange may time out. -/
theorem State.exchanges_timeout {s : State} {tx : Byte} (htx : s.tx = some tx) :
    s.Exchanges tx .timeout (s.answered .timeout) :=
  ⟨(s.exchanged tx .timeout).fail .linkTimeout, by simp only [State.answered, execTimeoutAny, htx], rfl⟩

/-- R182 to R189: each phase has a rule for every byte, as long as its counter is inside it. -/
theorem State.exchanges_byte {s : State} {tx : Byte} (hpos : s.PositionOk) (htx : s.tx = some tx) (rx : Byte) :
    s.Exchanges tx (.byte rx) (s.answered (.byte rx)) := by
  cases hs : s.st <;> simp only [State.tx, State.answered, hs] at htx ⊢ <;> cases htx
  case hsMode => exact State.exchanges_handshake hs _ rx (State.goto_wire _)
  case hsMaster => exact State.exchanges_handshake hs _ rx (State.goto_wire _)
  case hsVersion => exact State.exchanges_handshake hs _ rx (State.enter_wire _)
  case entropy => exact State.exchanges_branch ⟨hs, hpos.entropy hs⟩ rfl rfl
  case metadata => exact State.exchanges_branch ⟨hs, hpos.metadata hs⟩ (by simp) (by simp)
  case select => exact State.exchanges_branch hs rfl rfl
  case record => exact State.exchanges_branch ⟨hs, hpos.record hs⟩ rfl rfl
  case confirm => exact State.exchanges_branch hs rfl rfl

/-- R163, R180: the rule of the phase takes place on every answer, with one exchange on the wire. -/
theorem State.exchanges_answered {s : State} {tx : Byte} (hpos : s.PositionOk) (htx : s.tx = some tx) (ans : Answer) :
    s.Exchanges tx ans (s.answered ans) := by
  cases ans with
  | timeout => exact State.exchanges_timeout htx
  | byte rx => exact State.exchanges_byte hpos htx rx

/-- Settles O30: both are the rule of the phase on the answer. -/
theorem exchangeIsTheEngineStep : Obligations.ExchangeIsTheEngineStep := by
  intro s tx ans
  refine ⟨fun htx => ?_, fun htx => if_neg htx⟩
  obtain ⟨op, hd, he⟩ := exists_decode_answer (State.busy_of_tx htx) ans
  rw [exec_xchg_of_tx htx]
  exact ⟨op, hd, he.symm, fun hinv => State.exchanges_answered hinv.position htx ans⟩

/-- Settles O48: a busy block has a byte to transmit, and its engine step is the rule of its phase. -/
theorem busyBlockAlwaysSteps : Obligations.BusyBlockAlwaysSteps := by
  intro s ans hinv hb
  obtain ⟨tx, htx⟩ := State.exists_tx_of_busy hb
  rw [State.linkStep_of_busy hb]
  obtain ⟨t, ht, hw⟩ := State.exchanges_answered hinv.position htx ans
  exact ⟨tx, t, htx, ht, hw⟩

/-! ### `CONFIGURE` (R161) -/

/-- Settles O31: `CONFIGURE` asks only whether the block is busy. -/
theorem configureRecordsTheValues : Obligations.ConfigureRecordsTheValues :=
  fun _ _ => ⟨fun hb => if_neg (Bool.eq_false_iff.mp hb), fun hb => if_pos hb⟩

end Sys2Proof.Machine

/-! Proofs of the engine statements (spec/42_engine.md): what each engine step does, that an attempt ends, and
what two blocks over a loopback do. -/

namespace Sys2Proof.Machine

/-! ### The engine steps (R182 to R190) -/

/-- An exchange outside `ENTROPY` uses up no draw. -/
theorem State.exchanged_eq_swapped {s : State} (h : s.st ≠ .entropy) (tx : Byte) (ans : Answer) :
    s.exchanged tx ans = s.swapped tx ans := by
  rw [State.exchanged, if_neg h, State.swapped]

/-- Settles O21: the exchange, and then the three branches of the shared sub-step. -/
theorem handshakeSubSteps : Obligations.HandshakeSubSteps := by
  intro s rx
  refine ⟨fun h => ?_, fun h => ?_, fun h => ?_⟩
  · rw [exec, execHsMode, if_pos h, State.exchanged_eq_swapped (by simp [h])]
    rfl
  · rw [exec, execHsMaster, if_pos h, State.exchanged_eq_swapped (by simp [h])]
    rfl
  · rw [exec, execHsVersion, if_pos h, State.exchanged_eq_swapped (by simp [h])]
    rfl

/-- Settles O22: the fill is the draw of `State.draw`. -/
theorem entropyStepDiscardsTheFill : Obligations.EntropyStepDiscardsTheFill := by
  intro s rx h hi
  refine ⟨s.draw, fun b hb => State.draw_eq hb, ?_⟩
  rw [exec, execEntropy, if_pos ⟨h, hi⟩]
  by_cases hl : s.idx + 1 = s.params.nEntropy
  · simp only [if_pos hl, State.enter, State.exchanged, if_pos h]
  · simp only [if_neg hl, State.advance, State.exchanged, h, if_true]

/-- A slot in canonical form, read whole, has the same byte at every offset. -/
theorem Memory.getD_slot_of_wf {m : Memory} (hm : m.wf = true) (k : Nat) : m.slot.getD k 0x00 = m.read k := by
  by_cases hk : k < slotLen
  · exact Memory.getD_slot m hk
  · rw [List.getD_eq_default _ _ (by rw [Memory.length_slot]; omega), Memory.read_outside hm (by omega)]
    rfl

/-- R146, R186: the byte of this side's stream that a `METADATA` step sends, piece by piece. -/
theorem State.getD_metaOut_slot {s : State} (ho : s.out.wf = true) {k : Nat} (hk : k < 27) {tx : Byte}
    (htx : tx = (metaOut s.params.layout s.out.slot).getD k 0) :
    (k < 7 → tx = s.out.read (55 + k)) ∧ (k = 7 → tx = 0x01) ∧
    (k = 8 → tx = s.out.read (s.params.layout.off .speciesId)) ∧ (9 ≤ k → tx = s.out.read (35 + k)) := by
  obtain ⟨M, hM, -, hname, hsize, hspecies, htrailer⟩ := metadataStreamLayout s s.out.slot s.out.length_slot
  simp only [Memory.getD_slot_of_wf ho] at hname hspecies htrailer
  rw [htx, ← metaOut_of_exec hM]
  exact ⟨hname k, fun h => by rw [h, hsize], fun h => by rw [h, hspecies], fun h => htrailer k h hk⟩

/-- R21: `RCV` keeps the canonical form when a metadata byte is kept. -/
theorem State.wf_keepMetadata {s : State} (hv : s.rcv.wf = true) (hi : s.idx < 27) (rx : Byte) :
    (s.keepMetadata rx).rcv.wf = true := by
  rw [State.keepMetadata_rcv]
  split
  · exact Memory.wf_write hv (by simp only [slotLen]; omega) rx
  · exact hv

/-- R186: what a `METADATA` step leaves in `RCV`, byte by byte. -/
theorem State.read_keepMetadata {s : State} (hv : s.rcv.wf = true) (rx : Byte) (a : Nat) :
    (s.keepMetadata rx).rcv.read a =
      if s.params.wireTrailer = true ∧ 9 ≤ s.idx ∧ a = 35 + s.idx then rx else s.rcv.read a := by
  rw [State.keepMetadata_rcv]
  by_cases hk : s.params.wireTrailer = true ∧ 9 ≤ s.idx
  · rw [if_pos hk, Memory.read_write hv]
    simp only [hk, true_and, eq_comm]
  · rw [if_neg hk, if_neg fun h => hk ⟨h.1, h.2.1⟩]

/-- Settles O23: the stream byte goes out, and `keepMetadata` decides what is stored. -/
theorem metadataStepKeepsTheTrailerIfWired : Obligations.MetadataStepKeepsTheTrailerIfWired := by
  intro s rx hinv h
  have hi : s.idx < 27 := hinv.position.metadata h
  obtain ⟨hname, hsize, hspecies, htrailer⟩ := State.getD_metaOut_slot hinv.out hi rfl
  refine ⟨_, (s.keepMetadata rx).rcv, hname, hsize, hspecies, htrailer, State.wf_keepMetadata hinv.rcv hi rx,
    State.read_keepMetadata hinv.rcv rx, ?_⟩
  rw [exec, execMetadata, if_pos ⟨h, hi⟩]
  simp only [State.exchanged_eq_swapped (s := s) (by simp [h]), State.keepMetadata_eq]
  by_cases hl : s.idx = 26
  · simp only [metaLen, hl, if_true, State.enter, State.swapped]
  · simp only [metaLen, hl, if_false, State.advance, State.swapped, h]

/-- R91: the index of a selection byte is the distance from `SEL_BASE` modulo 256. -/
theorem selectionIndex_eq (base rx : Byte) : selectionIndex base rx = (rx.toNat + 256 - base.toNat) % 256 := by
  have hb := base.isLt
  rw [selectionIndex, BitVec.toNat_sub]
  congr 1
  omega

/-- Settles O24: the index of the received byte decides. -/
theorem selectStepChecksTheIndex : Obligations.SelectStepChecksTheIndex := by
  intro s rx h
  rw [exec, execSelect, if_pos h, State.exchanged_eq_swapped (by simp [h]), ← selectionIndex_eq]
  exact (apply_ite Host.Outcome.next _ _ _).symm

/-- Settles O25: one byte of `RCV` is written, at the counter. -/
theorem recordStepStoresOneByte : Obligations.RecordStepStoresOneByte := by
  intro s rx hinv h
  have hi : s.idx < 44 := hinv.position.record h
  refine ⟨s.rcv.write s.idx rx, Memory.wf_write hinv.rcv (by simp only [slotLen]; omega) rx,
    Memory.read_write_same _ _ _, fun a ha => ?_, hi, ?_⟩
  · rw [Memory.read_write hinv.rcv, if_neg ha.symm]
  rw [exec, execRecord, if_pos ⟨h, hi⟩, State.exchanged_eq_swapped (by simp [h])]
  by_cases hl : s.idx = 43
  · simp only [coreLen, hl, if_true, State.enter, State.store, State.swapped]
  · simp only [coreLen, hl, if_false, State.advance, State.store, State.swapped, h]

/-- Settles O26: the received byte is compared with `ACK_CODE`, once. -/
theorem confirmStepEndsTheAttempt : Obligations.ConfirmStepEndsTheAttempt := by
  intro s rx h
  rw [exec, execConfirm, if_pos h, State.exchanged_eq_swapped (by simp [h])]
  exact (apply_ite Host.Outcome.next _ _ _).symm

/-- R190: a block with a byte to transmit, whose exchange times out. -/
theorem execTimeoutAny_of_tx {s : State} {tx : Byte} (h : s.tx = some tx) :
    execTimeoutAny s = .next ((s.exchanged tx .timeout).fail .linkTimeout) := by
  rw [execTimeoutAny, h]

/-- Settles O27: a busy block has a byte to transmit, and `raise` writes no slot and no counter. -/
theorem timeoutFailsTheAttempt : Obligations.TimeoutFailsTheAttempt := by
  intro s hb
  obtain ⟨tx, htx⟩ := State.exists_tx_of_busy hb
  exact ⟨tx, htx, execTimeoutAny_of_tx htx⟩

/-- R181: a step past its count, or outside its phase, is not in the table. -/
theorem not_counting {p : Prop} {i n : Nat} (h : ¬ p ∨ n ≤ i) : ¬ (p ∧ i < n) :=
  fun ⟨hp, hi⟩ => h.elim (· hp) hi.not_ge

/-- R181: a block that is not busy has no exchange pending. -/
theorem State.tx_of_not_busy {s : State} (hb : s.st.busy = false) : s.tx = none := by
  rw [← Option.isNone_iff_eq_none, ← Option.not_isSome, State.tx_isSome, hb]
  rfl

/-- R191: no answer is decoded in a block that is not busy. -/
theorem decodeAnswer_of_not_busy {st : Phase} (hb : st.busy = false) (a : Answer) :
    decodeAnswer st a = .error .noExchangePending := by
  cases st
  case idle | complete | failed => rfl
  all_goals cases hb

/-- Settles O28: each row of the table asks for its phase and its count, a timeout for an exchange. -/
theorem stepsOutsideTheTableAreRefused : Obligations.StepsOutsideTheTableAreRefused := by
  intro s rx
  refine ⟨(if_neg ·), (if_neg ·), (if_neg ·), (if_neg <| not_counting ·), (if_neg <| not_counting ·), (if_neg ·),
    (if_neg <| not_counting ·), (if_neg ·), fun hb => ?timeout, fun a xs hb hh hi => ?answer, rfl, rfl⟩
  case timeout => rw [exec, execTimeoutAny, State.tx_of_not_busy hb]
  case answer =>
    rw [step, State.pending_inputs (.inr hh) hi]
    simp only [decode, decodeAnswer_of_not_busy hb]

/-! ### One exchange of a clean attempt (R98, R192) -/

/-- R192: the block has made `k` exchanges of an attempt in which nothing is retried. -/
def State.At (s : State) (k : Nat) : Prop :=
  match s.st with
  | .hsMode => k = 0
  | .hsMaster => k = 1
  | .hsVersion => k = 2
  | .entropy => k = 3 + s.idx
  | .metadata => k = 3 + s.params.nEntropy + s.idx
  | .select => k = 30 + s.params.nEntropy
  | .record => k = 31 + s.params.nEntropy + s.idx
  | .confirm => k = 75 + s.params.nEntropy
  | .complete => k = 76 + s.params.nEntropy
  | .idle | .failed => False

/-- R98: the byte that exchange `k` of an attempt recognises, where it recognises only one. -/
def codeAt (p : Params) (k : Nat) : Option Byte :=
  if k = 0 then some p.modeCode
  else if k = 1 then some p.masterCode
  else if k = 2 then some p.versionCode
  else if k = 30 + p.nEntropy then some p.selBase
  else if k = 75 + p.nEntropy then some p.ackCode
  else none

/-- R186, R188: exchange `k` of an attempt brings the byte that `RCV` keeps at offset `a`. -/
def Arrives (p : Params) (k a : Nat) : Prop :=
  a < 44 ∧ k = 31 + p.nEntropy + a ∨ p.wireTrailer = true ∧ 44 ≤ a ∧ a < 62 ∧ k + 32 = p.nEntropy + a

/-- R226: the report with which a complete attempt has ended. -/
def State.completion (s : State) : List Report :=
  if s.st = .complete then [.result .complete .none s.rcv.slot] else []

theorem State.busy_of_at {s : State} {k : Nat} (h : s.At k) (hk : k < 76 + s.params.nEntropy) : s.st.busy = true := by
  cases hs : s.st <;> simp only [State.At, hs] at h
  case complete => omega
  all_goals rfl

theorem State.complete_of_at {s : State} (hpos : s.PositionOk) (hat : s.At (76 + s.params.nEntropy)) :
    s.st = .complete := by
  cases hs : s.st <;> simp only [State.At, hs] at hat
  case entropy => have := hpos.entropy hs; omega
  case metadata => have : s.idx < 27 := hpos.metadata hs; omega
  case record => have : s.idx < 44 := hpos.record hs; omega
  case complete => rfl
  all_goals omega

theorem State.completion_of_busy {s : State} (hb : s.st.busy = true) : s.completion = [] :=
  if_neg fun h => by rw [h] at hb; cases hb

theorem codeAt_select (p : Params) : codeAt p (30 + p.nEntropy) = some p.selBase := by
  rw [codeAt, if_neg (by omega), if_neg (by omega), if_neg (by omega), if_pos rfl]

theorem codeAt_confirm (p : Params) : codeAt p (75 + p.nEntropy) = some p.ackCode := by
  rw [codeAt, if_neg (by omega), if_neg (by omega), if_neg (by omega), if_neg (by omega), if_pos rfl]

/-- R182 to R189: a recognised byte takes the attempt one exchange on, and the last one reports. -/
theorem State.answered_recognised {s : State} {k : Nat} {rx : Byte} (hinv : s.Inv) (hat : s.At k)
    (hk : k < 76 + s.params.nEntropy) (hc : ∀ c, codeAt s.params k = some c → rx = c) :
    ∃ t, s.answered (.byte rx) = .next t ∧ t.At (k + 1) ∧ t.reports = s.reports ++ t.completion := by
  obtain ⟨op, hd, he⟩ := exists_decode_answer (State.busy_of_at hat hk) (.byte rx)
  rw [← he]
  cases hs : s.st <;> simp only [State.At, hs] at hat hd <;> cases hd
  case hsMode =>
    have hrx : rx = s.params.modeCode := hc _ (by simp [codeAt, hat])
    exact ⟨_, ((handshakeSubSteps s rx).1 hs).trans (congrArg _ (if_pos hrx)), by simp [State.At, hat],
      by simp [State.completion, State.swapped]⟩
  case hsMaster =>
    have hrx : rx = s.params.masterCode := hc _ (by simp [codeAt, hat])
    exact ⟨_, ((handshakeSubSteps s rx).2.1 hs).trans (congrArg _ (if_pos hrx)), by simp [State.At, hat],
      by simp [State.completion, State.swapped]⟩
  case hsVersion =>
    have hrx : rx = s.params.versionCode := hc _ (by simp [codeAt, hat])
    exact ⟨_, ((handshakeSubSteps s rx).2.2 hs).trans (congrArg _ (if_pos hrx)), by simp [State.At, hat],
      by simp [State.completion, State.swapped]⟩
  case entropy =>
    obtain ⟨fill, -, he⟩ := entropyStepDiscardsTheFill s rx hs (hinv.position.entropy hs)
    by_cases hl : s.idx + 1 = s.params.nEntropy <;> simp only [hl, if_true, if_false] at he
    · exact ⟨_, he, by simp only [State.At]; omega, by simp [State.completion]⟩
    · exact ⟨_, he, by simp only [State.At]; omega, by simp [State.completion]⟩
  case metadata =>
    obtain ⟨tx, rcv, -, -, -, -, -, -, he⟩ := metadataStepKeepsTheTrailerIfWired s rx hinv hs
    by_cases hl : s.idx = 26 <;> simp only [hl, if_true, if_false] at he
    · exact ⟨_, he, by simp only [State.At, State.swapped]; omega, by simp [State.completion, State.swapped]⟩
    · exact ⟨_, he, by simp only [State.At, State.swapped]; omega, by simp [State.completion, State.swapped]⟩
  case select =>
    have hrx : rx = s.params.selBase := hc _ (hat ▸ codeAt_select _)
    have hindex : (rx.toNat + 256 - s.params.selBase.toNat) % 256 < 1 := by rw [hrx]; omega
    exact ⟨_, (selectStepChecksTheIndex s rx hs).trans (congrArg _ (if_pos hindex)),
      by simp only [State.At, State.swapped]; omega, by simp [State.completion, State.swapped]⟩
  case record =>
    obtain ⟨rcv, -, -, -, -, he⟩ := recordStepStoresOneByte s rx hinv hs
    by_cases hl : s.idx = 43 <;> simp only [hl, if_true, if_false] at he
    · exact ⟨_, he, by simp only [State.At, State.swapped]; omega, by simp [State.completion, State.swapped]⟩
    · exact ⟨_, he, by simp only [State.At, State.swapped]; omega, by simp [State.completion, State.swapped]⟩
  case confirm =>
    have hrx : rx = s.params.ackCode := hc _ (hat ▸ codeAt_confirm _)
    exact ⟨_, (confirmStepEndsTheAttempt s rx hs).trans (congrArg _ (if_pos hrx)),
      by simp only [State.At, State.swapped]; omega, by simp [State.completion, State.swapped]⟩

/-- No operation changes what is still to come. -/
theorem Effect.inputs_eq {s t : State} (e : Effect s t) : t.inputs = s.inputs := by
  cases e <;> simp

/-- R186, R188: the exchange that brings a byte for the slot is a `RECORD` step or a `METADATA` step, at the counter
that belongs to the offset. -/
theorem State.phase_of_arrives {s : State} {p : Params} {k a : Nat} (hpos : s.PositionOk) (hat : s.At k)
    (hn : p.nEntropy = s.params.nEntropy) (ha : Arrives p k a) :
    s.st = .record ∧ a = s.idx ∨ s.st = .metadata ∧ p.wireTrailer = true ∧ 9 ≤ s.idx ∧ a = 35 + s.idx := by
  have he := hpos.entropy
  have hm : s.st = .metadata → s.idx < 27 := hpos.metadata
  have hr : s.st = .record → s.idx < 44 := hpos.record
  rcases ha with ⟨hlt, hk⟩ | ⟨hw, hlo, hhi, hk⟩
  · have hs : s.st = .record := by
      cases hs : s.st <;> simp only [State.At, hs, forall_const] at hat he hm hr
      case record => rfl
      all_goals omega
    simp only [State.At, hs] at hat
    exact .inl ⟨hs, by omega⟩
  · have hs : s.st = .metadata := by
      cases hs : s.st <;> simp only [State.At, hs, forall_const] at hat he hm hr
      case metadata => rfl
      all_goals omega
    simp only [State.At, hs] at hat
    exact .inr ⟨hs, hw, by omega, by omega⟩

/-- R186, R188: the block stores the byte that the exchange brings at the offset that keeps it. -/
theorem State.received_of_arrives {s : State} {k a : Nat} (hpos : s.PositionOk) (hat : s.At k)
    (ha : Arrives s.params k a) (tx rx : Byte) : s.received (.xchg tx (.byte rx)) = some (a, rx) := by
  rcases State.phase_of_arrives hpos hat rfl ha with ⟨hs, rfl⟩ | ⟨hs, hw, h9, rfl⟩
  · simp only [State.received, hs]
  · simp only [State.received, hs, hw, h9, and_self, if_true]

/-- R186, R188: what the block stores is what the exchange brings. -/
theorem State.arrives_of_received {s : State} {k a : Nat} {tx rx v : Byte} (hpos : s.PositionOk) (hat : s.At k)
    (h : s.received (.xchg tx (.byte rx)) = some (a, v)) : Arrives s.params k a := by
  by_cases hm : s.st = .metadata
  · have hi : s.idx < 27 := hpos.metadata hm
    simp only [State.At, hm] at hat
    simp only [State.received, hm, Option.ite_none_right_eq_some, Option.some.injEq, Prod.mk.injEq] at h
    obtain ⟨⟨hw, h9⟩, rfl, -⟩ := h
    exact .inr ⟨hw, by omega, by omega, by omega⟩
  by_cases hr : s.st = .record
  · have hi : s.idx < 44 := hpos.record hr
    simp only [State.At, hr] at hat
    simp only [State.received, hr, Option.some.injEq, Prod.mk.injEq] at h
    obtain ⟨rfl, -⟩ := h
    exact .inl ⟨hi, hat⟩
  · rw [received_of_phase hm hr] at h
    cases h

/-- R186, R188: the byte of exchange `k` is written where it is kept, and every other byte stays. -/
theorem State.read_of_answered {s t : State} {k : Nat} {rx : Byte} (hinv : s.Inv) (hat : s.At k)
    (h : s.answered (.byte rx) = .next t) (a : Nat) :
    (Arrives s.params k a → t.rcv.read a = rx) ∧ (¬ Arrives s.params k a → t.rcv.read a = s.rcv.read a) := by
  rw [rcv_of_answered h 0]
  refine ⟨fun ha => ?_, fun ha => ?_⟩
  · rw [State.received_of_arrives hinv.position hat ha]
    exact Memory.read_write_same _ _ _
  · cases hr : s.received (.xchg 0 (.byte rx)) with
    | none => rfl
    | some x =>
      obtain ⟨b, v⟩ := x
      have hne : a ≠ b := fun e => ha (e ▸ State.arrives_of_received hinv.position hat hr)
      exact (Memory.read_receive hinv.rcv b v).2 a hne

/-! ### The exchanges of a clean attempt, one after the other -/

/-- R192: where a block stands that began an attempt in `s` and made `k` exchanges without a retry: what has
arrived from the peer, whose byte for offset `a` is `peer a`, is in its place. -/
structure State.Reached (s : State) (peer : Nat → Byte) (k : Nat) (t : State) : Prop where
  inv : t.Inv
  pos : t.At k
  params : t.params = s.params
  out : t.out = s.out
  wire : t.wire.length = s.wire.length + k
  reports : t.reports = s.reports ++ t.completion
  kept : ∀ j a, j < k → Arrives s.params j a → t.rcv.read a = peer a

section
variable {s t : State} {peer : Nat → Byte} {k : Nat}

theorem State.Reached.start (hinv : s.Inv) (hs : s.st = .hsMode) : s.Reached peer 0 s where
  inv := hinv
  pos := by simp only [State.At, hs]
  params := rfl
  out := rfl
  wire := rfl
  reports := by rw [State.completion, hs]; exact (List.append_nil _).symm
  kept _ _ h := absurd h (Nat.not_lt_zero _)

/-- What is still to come is no part of where the attempt stands. -/
theorem State.Reached.withInputs (h : s.Reached peer k t) (xs : List Input) :
    s.Reached peer k { t with inputs := xs } where
  inv := h.inv.of_sameBlock ⟨rfl, rfl, rfl, rfl, rfl, rfl, rfl⟩
  pos := h.pos
  params := h.params
  out := h.out
  wire := h.wire
  reports := h.reports
  kept := h.kept

theorem State.Reached.busy (h : s.Reached peer k t) (hk : k < 76 + s.params.nEntropy) : t.st.busy = true :=
  State.busy_of_at h.pos (by rwa [h.params])

/-- R192: a recognised byte, the peer's, takes a clean attempt on. -/
theorem State.Reached.answered (h : s.Reached peer k t) (hk : k < 76 + s.params.nEntropy) {rx : Byte}
    (hc : ∀ c, codeAt s.params k = some c → rx = c) (hp : ∀ a, Arrives s.params k a → rx = peer a) :
    ∃ u, t.answered (.byte rx) = .next u ∧ s.Reached peer (k + 1) u ∧ u.inputs = t.inputs := by
  have hb := h.busy hk
  obtain ⟨u, hu, hat, hreports⟩ := State.answered_recognised h.inv h.pos (by rwa [h.params]) (by rwa [h.params])
  have he := State.answered_effect hu
  obtain ⟨tx, htx⟩ := State.exists_tx_of_busy hb
  obtain ⟨u', hu', hwire⟩ := State.exchanges_answered h.inv.position htx (.byte rx)
  obtain rfl : u = u' := Host.Outcome.next.inj (hu.symm.trans hu')
  refine ⟨u, hu, ⟨he.inv h.inv, hat, he.params_eq.trans h.params, ?_, ?_, ?_, fun j a hj ha => ?_⟩, he.inputs_eq⟩
  · exact (he.out_eq.resolve_right fun hn => by rw [hb] at hn; cases hn.1).trans h.out
  · rw [hwire, List.length_append, h.wire]
    rfl
  · rw [hreports, h.reports, State.completion_of_busy hb, List.append_nil]
  · obtain ⟨hnew, hold⟩ := State.read_of_answered h.inv h.pos hu a
    rw [h.params] at hnew hold
    by_cases hka : Arrives s.params k a
    · rw [hnew hka, hp a hka]
    · rw [hold hka]
      exact h.kept j a (Nat.lt_of_le_of_ne (Nat.le_of_lt_succ hj) fun e => hka (e ▸ ha)) ha

/-- R39, R192: what a complete attempt leaves in `RCV`. -/
theorem State.Reached.complete (h : s.Reached peer (76 + s.params.nEntropy) t) :
    t.st = .complete ∧ (∀ a, a < 44 → t.rcv.read a = peer a) ∧
    ∀ a, 44 ≤ a → a < 62 → t.rcv.read a = if s.params.wireTrailer = true then peer a else 0x00 := by
  have hst : t.st = .complete := State.complete_of_at h.inv.position (h.params ▸ h.pos)
  refine ⟨hst, fun a ha => h.kept _ a (by omega) (.inl ⟨ha, rfl⟩), fun a hlo hhi => ?_⟩
  by_cases hw : s.params.wireTrailer = true
  · rw [if_pos hw]
    exact h.kept (s.params.nEntropy + a - 32) a (by omega) (.inr ⟨hw, hlo, hhi, by omega⟩)
  · rw [if_neg hw]
    exact h.inv.untouched a (State.untouched_unwired hlo (by rw [h.params]; simpa using hw))

end

/-! ### A clean attempt on recognised answers (R98, R192) -/

/-- One more step at the end of a run. -/
theorem run_succ {M : Host.Core} {n : Nat} {s t : M.State} (h : M.run n s = .next t) : M.run (n + 1) s = M.step t := by
  induction n generalizing s with
  | zero =>
    cases h
    rw [Host.Core.run]
    cases M.step t <;> simp only [Host.Core.run]
  | succ n ih =>
    rw [Host.Core.run] at h ⊢
    cases hs : M.step s with
    | next u => exact ih (by simpa only [hs] using h)
    | fault r => simp only [hs] at h; cases h
    | refused r => simp only [hs] at h; cases h

/-- R180: a busy block that is offered an answer takes the step of its phase on it. -/
theorem step_answer {s : State} {ans : Answer} {xs : List Input} (hb : s.st.busy = true)
    (hi : s.inputs = .answer ans :: xs) : step s = { s with inputs := xs }.answered ans := by
  obtain ⟨op, hd, he⟩ := exists_decode_answer (s := { s with inputs := xs }) hb ans
  rw [step_eq_exec (State.pending_busy hb hi) hd, he]

/-- R98: the bytes of `recognised`. -/
def recognisedBytes (p : Params) (fill md core : List Byte) : List Byte :=
  [p.modeCode, p.masterCode, p.versionCode] ++ fill ++ md ++ [p.selBase] ++ core ++ [p.ackCode]

/-- R186, R188: the byte for offset `a` of the slot, of a peer that sends the stream `md` and the core block `core`. -/
def peerByte (md core : List Byte) (a : Nat) : Byte := if a < 44 then core.getD a 0 else md.getD (a - 35) 0

section
variable {p : Params} {fill md core : List Byte}

theorem recognised_eq_map : recognised p fill md core = (recognisedBytes p fill md core).map .byte := rfl

variable (hf : fill.length = p.nEntropy) (hm : md.length = 27) (hc : core.length = 44)
include hf hm hc

theorem length_recognisedBytes : (recognisedBytes p fill md core).length = 76 + p.nEntropy := by
  simp only [recognisedBytes, List.length_append, List.length_cons, List.length_nil, hf, hm, hc]
  omega

theorem recognisedBytes_select : (recognisedBytes p fill md core)[30 + p.nEntropy]? = some p.selBase := by
  simp only [recognisedBytes, List.getElem?_append, List.length_append, List.length_cons, List.length_nil, hf, hm, hc]
  rw [if_pos (by omega), if_pos (by omega), if_neg (by omega), List.getElem?_singleton, if_pos (by omega)]

theorem recognisedBytes_confirm : (recognisedBytes p fill md core)[75 + p.nEntropy]? = some p.ackCode := by
  simp only [recognisedBytes, List.getElem?_append, List.length_append, List.length_cons, List.length_nil, hf, hm, hc]
  rw [if_neg (by omega), List.getElem?_singleton, if_pos (by omega)]

theorem recognisedBytes_record {a : Nat} (ha : a < 44) :
    (recognisedBytes p fill md core)[31 + p.nEntropy + a]? = core[a]? := by
  simp only [recognisedBytes, List.getElem?_append, List.length_append, List.length_cons, List.length_nil, hf, hm, hc]
  rw [if_pos (by omega), if_neg (by omega)]
  congr 1
  omega

theorem recognisedBytes_metadata {j : Nat} (hj : j < 27) :
    (recognisedBytes p fill md core)[3 + p.nEntropy + j]? = md[j]? := by
  simp only [recognisedBytes, List.getElem?_append, List.length_append, List.length_cons, List.length_nil, hf, hm, hc]
  rw [if_pos (by omega), if_pos (by omega), if_pos (by omega), if_neg (by omega)]
  congr 1
  omega

/-- R98: where the attempt recognises only one byte, it is the one offered. -/
theorem recognisedBytes_code {k : Nat} {c : Byte} (h : codeAt p k = some c) :
    (recognisedBytes p fill md core)[k]? = some c := by
  unfold codeAt at h
  split_ifs at h with h0 h1 h2 hs ha
  · rw [h0, ← h]; rfl
  · rw [h1, ← h]; rfl
  · rw [h2, ← h]; rfl
  · rw [hs, ← h, recognisedBytes_select hf hm hc]
  · rw [ha, ← h, recognisedBytes_confirm hf hm hc]

/-- R186, R188: what the recognised bytes bring for an offset of the slot. -/
theorem recognisedBytes_arrives {k a : Nat} (h : Arrives p k a) :
    (recognisedBytes p fill md core)[k]? = some (peerByte md core a) := by
  rw [peerByte]
  rcases h with ⟨ha, rfl⟩ | ⟨-, hlo, hhi, hk⟩
  · rw [recognisedBytes_record hf hm hc ha, if_pos ha, List.getD_eq_getElem _ _ (by omega), List.getElem?_eq_getElem]
  · obtain rfl : k = 3 + p.nEntropy + (a - 35) := by omega
    rw [recognisedBytes_metadata hf hm hc (by omega), if_neg (by omega), List.getD_eq_getElem _ _ (by omega),
      List.getElem?_eq_getElem]

end

/-- R192: after `k` recognised answers the attempt has made `k` exchanges, and the others are still to come. -/
theorem exists_reached {s : State} {fill md core : List Byte} {rest : List Input} (hinv : s.Inv) (hs : s.st = .hsMode)
    (hf : fill.length = s.params.nEntropy) (hm : md.length = 27) (hc : core.length = 44)
    (hi : s.inputs = (recognised s.params fill md core).map Input.answer ++ rest) {k : Nat}
    (hk : k ≤ 76 + s.params.nEntropy) :
    ∃ t : State, Host.Core.run Sys2Proof.core k s = .next t ∧
      s.Reached (peerByte md core) k t ∧
      t.inputs = ((recognised s.params fill md core).drop k).map Input.answer ++ rest := by
  induction k with
  | zero => exact ⟨s, rfl, .start hinv hs, hi⟩
  | succ k ih =>
    obtain ⟨t, hrun, hreached, hin⟩ := ih (by omega)
    have hlen := length_recognisedBytes hf hm hc
    obtain ⟨rx, hrx⟩ : ∃ rx, (recognisedBytes s.params fill md core)[k]? = some rx :=
      ⟨_, List.getElem?_eq_getElem (by omega)⟩
    have hget : (recognised s.params fill md core)[k]? = some (.byte rx) := by
      rw [recognised_eq_map, List.getElem?_map, hrx]
      rfl
    obtain ⟨hlt, hget⟩ := List.getElem?_eq_some_iff.mp hget
    rw [List.drop_eq_getElem_cons hlt, hget] at hin
    obtain ⟨u, hu, hnext, hin'⟩ := (hreached.withInputs _).answered (rx := rx) (by omega)
      (fun c hcode => Option.some.inj (hrx.symm.trans (recognisedBytes_code hf hm hc hcode)))
      (fun a ha => Option.some.inj (hrx.symm.trans (recognisedBytes_arrives hf hm hc ha)))
    exact ⟨u, (run_succ hrun).trans ((step_answer (hreached.busy (by omega)) hin).trans hu), hnext, hin'⟩

/-- Settles O57: after all the recognised answers the attempt is complete. -/
theorem cleanAttemptCompletes : Obligations.CleanAttemptCompletes := by
  intro s fill md core rest hinv hs hf hm hc hi
  obtain ⟨t, hrun, hreached, hin⟩ := exists_reached hinv hs hf hm hc hi le_rfl
  obtain ⟨hst, hcore, htrailer⟩ := hreached.complete
  refine ⟨t, hrun, hst, hreached.inv.err.mpr (by simp [hst]), ?_, hreached.out, hreached.wire,
    fun a ha => (hcore a ha).trans (if_pos ha), fun a hlo hhi => ?_, ?_⟩
  · rw [hin, List.drop_of_length_le, List.map_nil, List.nil_append]
    rw [recognised_eq_map, List.length_map, length_recognisedBytes hf hm hc]
  · rw [htrailer a hlo hhi, peerByte, if_neg (show ¬ a < 44 by omega)]
  · rw [hreached.reports, State.completion, if_pos hst]

/-! ### Every attempt ends (R163, R192) -/

/-- R192: how many exchanges the attempt can still make: those of a clean attempt and the retries that its
handshake has left. -/
def State.left (s : State) : Nat :=
  match s.st with
  | .hsMode => 76 + s.params.nEntropy + 3 * s.params.retryBudget - s.retry
  | .hsMaster => 75 + s.params.nEntropy + 2 * s.params.retryBudget - s.retry
  | .hsVersion => 74 + s.params.nEntropy + s.params.retryBudget - s.retry
  | .entropy => 73 + s.params.nEntropy - s.idx
  | .metadata => 73 - s.idx
  | .select => 46
  | .record => 45 - s.idx
  | .confirm => 1
  | .idle | .complete | .failed => 0

theorem State.left_pos {s : State} (hinv : s.Inv) (hb : s.st.busy = true) : 0 < s.left := by
  have hr := hinv.retry
  cases hs : s.st <;> simp only [State.left, hs]
  case idle | complete | failed => rw [hs] at hb; cases hb
  case entropy => have := hinv.position.entropy hs; omega
  case metadata => have : s.idx < 27 := hinv.position.metadata hs; omega
  case record => have : s.idx < 44 := hinv.position.record hs; omega
  all_goals omega

/-- R181: what has an exchange behind it brings the attempt nearer to its end. -/
theorem Effect.left_lt {s t : State} (e : Effect s t) (hinv : s.Inv) (hb : s.st.busy = true) (hw : t.wire ≠ s.wire) :
    t.left < s.left := by
  have hr := hinv.retry
  cases e with
  | computed | configured | nothing | offered | helped => exact absurd (by simp) hw
  | started hb' => rw [hb] at hb'; cases hb'
  | matched _ _ q hq =>
    rcases matchedTo_cases hq with ⟨hs, rfl⟩ | ⟨hs, rfl⟩ <;> simp [State.left, hs] <;> omega
  | agreed _ _ hs => simp [State.left, hs]; omega
  | retried _ _ hs hlt => rcases hs with hs | hs | hs <;> simp [State.left, hs] <;> omega
  | filled _ _ hs hi | filledAll _ _ hs hi => simp [State.left, hs]; omega
  | described _ _ hs hi | describedAll _ _ hs hi => simp [State.left, hs, metaLen] at hi ⊢; omega
  | selected _ _ hs => simp [State.left, hs]
  | stored _ _ hs hi | storedAll _ _ hs hi => simp [State.left, hs, coreLen] at hi ⊢; omega
  | confirmed _ _ hs => simp [State.left, hs]
  | failed => exact State.left_pos hinv hb

/-- R31: after a busy phase comes a busy one or `COMPLETE`. -/
theorem Phase.successor_cases {p q : Phase} (h : p.successor = some q) : q = .complete ∨ q.busy = true := by
  cases p <;> cases h <;> decide

/-- R31: an engine step does not lead back to `IDLE`. -/
theorem Effect.ended_or_busy {s t : State} (e : Effect s t) (hb : s.st.busy = true) :
    (t.st = .complete ∨ t.st = .failed) ∨ t.st.busy = true := by
  rcases e.position with ⟨hs, -⟩ | ⟨-, hs, -⟩ | ⟨-, hs, -⟩ | ⟨hn, -⟩
  · exact .inr (hs ▸ hb)
  · exact (Phase.successor_cases hs).imp_left .inl
  · exact .inl (.inr hs)
  · rw [hb] at hn; cases hn

/-- R163, R192: an answer, whatever it is, brings a busy block to the end of its attempt or nearer to it. -/
theorem State.exists_answered {s : State} (hinv : s.Inv) (hb : s.st.busy = true) (ans : Answer) :
    ∃ t, s.answered ans = .next t ∧ t.Inv ∧ t.inputs = s.inputs ∧ t.left < s.left ∧
      ((t.st = .complete ∨ t.st = .failed) ∨ t.st.busy = true) := by
  obtain ⟨tx, htx⟩ := State.exists_tx_of_busy hb
  obtain ⟨t, ht, hw⟩ := State.exchanges_answered hinv.position htx ans
  have he := State.answered_effect ht
  exact ⟨t, ht, he.inv hinv, he.inputs_eq, he.left_lt hinv hb (by simp [hw]), he.ended_or_busy hb⟩

/-- A run whose first step answers a next state. -/
theorem run_of_step {n : Nat} {s t : State} (h : step s = .next t) :
    Host.Core.run Sys2Proof.core (n + 1) s = Host.Core.run Sys2Proof.core n t := by
  simp only [Host.Core.run, show Sys2Proof.core.step s = .next t from h]

/-- R192: a block in an attempt ends it within the exchanges that it has left, by induction on them. -/
theorem exists_run_ended {s : State} {answers : List Answer} {rest : List Input} (hinv : s.Inv) (hb : s.st.busy = true)
    (hlen : s.left ≤ answers.length) (hi : s.inputs = answers.map Input.answer ++ rest) :
    ∃ (n : Nat) (t : State), n ≤ s.left ∧ Host.Core.run Sys2Proof.core n s = .next t ∧
      (t.st = .complete ∨ t.st = .failed) ∧ t.inputs = (answers.drop n).map Input.answer ++ rest := by
  induction hl : s.left using Nat.strong_induction_on generalizing s answers with
  | _ l ih =>
    subst hl
    have hpos := State.left_pos hinv hb
    cases answers with
    | nil => simp at hlen; omega
    | cons ans answers =>
      let u : State := { s with inputs := answers.map Input.answer ++ rest }
      obtain ⟨t, ht, htinv, hin, hlt, hend⟩ :=
        State.exists_answered (s := u) (hinv.of_sameBlock ⟨rfl, rfl, rfl, rfl, rfl, rfl, rfl⟩) hb ans
      have hstep : step s = .next t := (step_answer hb hi).trans ht
      have hlt : t.left < s.left := hlt
      rcases hend with hend | hb'
      · exact ⟨1, t, hpos, run_of_step hstep, hend, hin⟩
      · rw [List.length_cons] at hlen
        obtain ⟨n, v, hn, hrun, hv, hv'⟩ := ih _ hlt htinv hb' (by omega) hin rfl
        exact ⟨n + 1, v, by omega, (run_of_step hstep).trans hrun, hv, hv'⟩

/-- Settles O58: at the start of an attempt the bound is what it has left. -/
theorem everyAttemptEnds : Obligations.EveryAttemptEnds := by
  intro s answers rest hinv hs hr hlen hi
  have hleft : s.left = 76 + s.params.nEntropy + 3 * s.params.retryBudget := by
    simp only [State.left, hs, hr, Nat.sub_zero]
  rw [← hleft] at hlen ⊢
  exact exists_run_ended hinv (by rw [hs]; rfl) hlen hi

/-! ### Two blocks over a loopback, seen from either side (R166) -/

/-- The pair with its sides exchanged. -/
def Pair.swap (p : Pair) : Pair := ⟨p.b, p.a⟩

/-- The event with the sides exchanged. -/
def PairEvent.swap : PairEvent → PairEvent
  | .link e => .link ⟨e.toB, e.toA, e.waits⟩
  | .ownA => .ownB
  | .ownB => .ownA

/-- R166, R251: the composition treats both sides alike. -/
theorem Pair.step_swap {e : PairEvent} {p q : Pair} (h : p.step e = .next q) : p.swap.step e.swap = .next q.swap := by
  have hboth {x y : Host.Outcome State Fault Refusal} (h : Pair.both x y = .next q) : Pair.both y x = .next q.swap :=
    Pair.both_eq_next.mpr (Pair.both_eq_next.mp h).symm
  cases e with
  | ownA => exact hboth h
  | ownB => exact hboth h
  | link e =>
    simp only [Pair.step, Pair.linkStep, PairEvent.swap, Pair.swap] at h ⊢
    cases ha : p.a.tx <;> cases hb : p.b.tx <;> simp only [ha, hb] at h ⊢
    · cases h; rfl
    · exact hboth h
    · exact hboth h
    · exact hboth h

theorem Pair.run_swap {es : List PairEvent} {p q : Pair} (h : Pair.run es p = .next q) :
    Pair.run (es.map .swap) p.swap = .next q.swap := by
  induction es generalizing p with
  | nil => cases h; rfl
  | cons e es ih =>
    simp only [Pair.run] at h
    split at h
    · next r hr => exact (Pair.run_cons (Pair.step_swap hr)).trans (ih h)
    all_goals cases h

/-- One more step at the end of a run of the pair. -/
theorem Pair.run_concat {es : List PairEvent} {e : PairEvent} {p q : Pair} (h : Pair.run es p = .next q) :
    Pair.run (es ++ [e]) p = q.step e := by
  rw [Pair.run_append h, Pair.run]
  cases q.step e <;> rfl

/-- What every step of a run takes on, the run takes from its start to its end. -/
theorem Pair.exists_run {P : Nat → Pair → Prop} {p : Pair} (hstart : P 0 p) {es : List PairEvent}
    (hstep : ∀ (m : Nat) (q : Pair), ∀ e ∈ es, m < es.length → P m q → ∃ r, q.step e = .next r ∧ P (m + 1) r) :
    ∃ q, Pair.run es p = .next q ∧ P es.length q := by
  induction es using List.reverseRecOn with
  | nil => exact ⟨p, rfl, hstart⟩
  | append_singleton es e ih =>
    obtain ⟨q, hrun, hq⟩ := ih fun m q f hf hm => hstep m q f (List.mem_append_left _ hf) (by simp; omega)
    obtain ⟨r, hr, hnext⟩ := hstep es.length q e (by simp) (by simp) hq
    exact ⟨r, (Pair.run_concat hrun).trans hr, by simpa using hnext⟩

/-! ### A clean loopback (R166, R193) -/

/-- R166(a), (d): a joint step of two busy blocks is the engine step of each on what the link delivers. -/
theorem Pair.step_busy {e : LinkEvent} {p : Pair} {ta tb : Byte} (ha : p.a.tx = some ta) (hb : p.b.tx = some tb) :
    p.step (.link e) =
      Pair.both (p.a.answered (.byte (e.toA.getD tb))) (p.b.answered (.byte (e.toB.getD ta))) := by
  rw [Pair.step_joint ha hb, State.linkStep_of_busy (State.busy_of_tx ha), State.linkStep_of_busy (State.busy_of_tx hb)]
  rfl

/-- R96: a block transmits the byte that exchange `k` recognises, where it recognises only one. -/
theorem State.code_of_tx {s : State} {k : Nat} {tx c : Byte} (hpos : s.PositionOk) (hat : s.At k) (htx : s.tx = some tx)
    (hc : codeAt s.params k = some c) : tx = c := by
  refine Option.some.inj (htx.symm.trans (Eq.trans ?_ hc))
  have hnone (h : 3 ≤ k) (hs : k ≠ 30 + s.params.nEntropy) (ha : k ≠ 75 + s.params.nEntropy) :
      codeAt s.params k = none := by
    rw [codeAt, if_neg (by omega), if_neg (by omega), if_neg (by omega), if_neg hs, if_neg ha]
  cases hs : s.st <;> simp only [State.At, State.tx, hs] at hat htx ⊢
  case hsMode | hsMaster | hsVersion => subst hat; rfl
  case select => rw [hat, codeAt_select]
  case confirm => rw [hat, codeAt_confirm]
  case entropy =>
    have := hpos.entropy hs
    cases (hnone (by omega) (by omega) (by omega)).symm.trans hc
  case metadata =>
    have : s.idx < 27 := hpos.metadata hs
    cases (hnone (by omega) (by omega) (by omega)).symm.trans hc
  case record =>
    have : s.idx < 44 := hpos.record hs
    cases (hnone (by omega) (by omega) (by omega)).symm.trans hc
  case complete => cases htx

/-- R186, R188: the byte of `OUT` that a block transmits is the one that its peer keeps at that offset. -/
theorem State.out_of_tx {s : State} {p : Params} {k a : Nat} {tx : Byte} (hinv : s.Inv) (hat : s.At k)
    (htx : s.tx = some tx) (hn : p.nEntropy = s.params.nEntropy) (ha : Arrives p k a) : tx = s.out.read a := by
  rcases State.phase_of_arrives hinv.position hat hn ha with ⟨hs, rfl⟩ | ⟨hs, -, h9, rfl⟩
  · simp only [State.tx, hs, Option.some.injEq] at htx
    exact htx.symm
  · simp only [State.tx, hs, Option.some.injEq] at htx
    exact (State.getD_metaOut_slot hinv.out (hinv.position.metadata hs) htx.symm).2.2.2 h9

/-- R193: the two sides agree on what a clean attempt recognises and on how long it is. -/
structure Params.Agree (p q : Params) : Prop where
  modeCode : p.modeCode = q.modeCode
  masterCode : p.masterCode = q.masterCode
  versionCode : p.versionCode = q.versionCode
  ackCode : p.ackCode = q.ackCode
  selBase : p.selBase = q.selBase
  nEntropy : p.nEntropy = q.nEntropy

theorem Params.Agree.symm {p q : Params} (h : Params.Agree p q) : Params.Agree q p :=
  ⟨h.modeCode.symm, h.masterCode.symm, h.versionCode.symm, h.ackCode.symm, h.selBase.symm, h.nEntropy.symm⟩

theorem Params.Agree.codeAt_eq {p q : Params} (h : Params.Agree p q) (k : Nat) : codeAt p k = codeAt q k := by
  simp only [codeAt, h.modeCode, h.masterCode, h.versionCode, h.ackCode, h.selBase, h.nEntropy]

/-- R193: what a peer that stands as far transmits takes a clean attempt on. -/
theorem State.Reached.answered_peer {s t r u : State} {peer : Nat → Byte} {k : Nat} {tx : Byte}
    (h : s.Reached r.out.read k t) (hpeer : r.Reached peer k u) (hagree : Params.Agree s.params r.params)
    (hk : k < 76 + s.params.nEntropy) (htx : u.tx = some tx) :
    ∃ v, t.answered (.byte tx) = .next v ∧ s.Reached r.out.read (k + 1) v := by
  obtain ⟨v, hv, hnext, -⟩ := h.answered hk (rx := tx)
    (fun c hc => State.code_of_tx hpeer.inv.position hpeer.pos htx (by rw [hpeer.params, ← hagree.codeAt_eq, hc]))
    (fun a ha => by
      rw [State.out_of_tx hpeer.inv hpeer.pos htx (by rw [hpeer.params, hagree.nEntropy]) ha, hpeer.out])
  exact ⟨v, hv, hnext⟩

/-- R193: both sides have made `k` exchanges of a clean attempt that they began in `p`, each with the other. -/
def Pair.Reached (p : Pair) (k : Nat) (q : Pair) : Prop :=
  p.a.Reached p.b.out.read k q.a ∧ p.b.Reached p.a.out.read k q.b

/-- R166(a), R193: a joint step over a clean loopback takes both attempts on. -/
theorem Pair.Reached.step_clean {p q : Pair} {k : Nat} (h : p.Reached k q)
    (hagree : Params.Agree p.a.params p.b.params) (hk : k < 76 + p.a.params.nEntropy) :
    ∃ r, q.step (.link .clean) = .next r ∧ p.Reached (k + 1) r := by
  obtain ⟨hqa, hqb⟩ := h
  have hkb : k < 76 + p.b.params.nEntropy := hagree.nEntropy ▸ hk
  obtain ⟨ta, hta⟩ := State.exists_tx_of_busy (hqa.busy hk)
  obtain ⟨tb, htb⟩ := State.exists_tx_of_busy (hqb.busy hkb)
  obtain ⟨a, hqa', hra⟩ := hqa.answered_peer hqb hagree hk htb
  obtain ⟨b, hqb', hrb⟩ := hqb.answered_peer hqa hagree.symm hkb hta
  exact ⟨⟨a, b⟩, (Pair.step_busy hta htb).trans (Pair.both_eq_next.mpr ⟨hqa', hqb'⟩), hra, hrb⟩

/-- R193: after `k` joint steps over a clean loopback both sides have made `k` exchanges of a clean attempt. -/
theorem Pair.exists_reached {p : Pair} (ha : p.a.Inv) (hb : p.b.Inv) (hsa : p.a.st = .hsMode) (hsb : p.b.st = .hsMode)
    (hagree : Params.Agree p.a.params p.b.params) {k : Nat} (hk : k ≤ 76 + p.a.params.nEntropy) :
    ∃ q : Pair, Pair.run (List.replicate k (.link .clean)) p = .next q ∧ p.Reached k q := by
  have hstart : p.Reached 0 p := ⟨.start ha hsa, .start hb hsb⟩
  obtain ⟨q, hrun, hq⟩ := Pair.exists_run (es := List.replicate k (.link .clean)) hstart fun m q e he hm hq => by
    rw [List.length_replicate] at hm
    rw [List.eq_of_mem_replicate he]
    exact hq.step_clean hagree (by omega)
  exact ⟨q, hrun, by rwa [List.length_replicate] at hq⟩

/-! ### One side alone: its start, its wait and its timeout (R166(b), (c), R251) -/

/-- R221: the `'t'` of a block in `IDLE` starts an attempt. -/
theorem exists_trade {s : State} (hs : s.st = .idle) : ∃ a, exec .cmdTrade s = .next a ∧ a.st = .hsMode :=
  ⟨_, exec_trade (by rw [hs]; rfl) (.inl rfl), s.startAttempt_st⟩

/-- R190: a busy block whose exchange times out has failed, and has received nothing in that step. -/
theorem exists_timeout {s : State} (hb : s.st.busy = true) :
    ∃ t, exec .timeoutAny s = .next t ∧ t.st = .failed ∧ t.err = .linkTimeout ∧ t.rcv = s.rcv := by
  obtain ⟨tx, -, ht⟩ := timeoutFailsTheAttempt s hb
  exact ⟨_, ht, rfl, rfl, rfl⟩

section
variable {p : Pair} {e : LinkEvent} {a t : State}

/-- R251: A accepts its own host's `'t'`, whatever B does. -/
theorem Pair.step_tradeA {xs : List Input} (hs : p.a.st = .idle) (hh : p.a.held = [])
    (hi : p.a.inputs = .host [0x74] :: xs) (ha : exec .cmdTrade { p.a with inputs := xs } = .next a) :
    p.step .ownA = .next ⟨a, p.b⟩ := by
  have hb : p.a.st.busy = false := by rw [hs]; rfl
  have hown : p.a.ownStep = .next a := (State.ownStep_host hb hh hi).trans ha
  rw [Pair.step, hown, State.peerStep_next (State.abandons_of_not_busy hb), Pair.both_next]

/-- R251: B accepts its own host's `'t'`, whatever A does. -/
theorem Pair.step_tradeB {xs : List Input} (hs : p.b.st = .idle) (hh : p.b.held = [])
    (hi : p.b.inputs = .host [0x74] :: xs) (ha : exec .cmdTrade { p.b with inputs := xs } = .next a) :
    p.step .ownB = .next ⟨p.a, a⟩ :=
  Pair.step_swap (Pair.step_tradeA (p := p.swap) hs hh hi ha)

/-- R166(c): A waits for a B in `IDLE` whose `'t'` is still to come. -/
theorem Pair.step_waitA (hb : p.a.st.busy = true) (hs : p.b.st = .idle) (ht : p.b.tradeToCome = true)
    (hw : e.waits = true) : p.step (.link e) = .next p := by
  obtain ⟨tx, htx⟩ := State.exists_tx_of_busy hb
  rw [Pair.step_aloneA htx (State.tx_of_not_busy (by rw [hs]; rfl)), hw, State.aloneStep_waits hs ht, Pair.both_next]

/-- R166(b), (c): A times out if it does not wait for a B that is not busy. -/
theorem Pair.step_timeoutA (hb : p.a.st.busy = true) (hn : p.b.st.busy = false) (hw : p.b.st ≠ .idle ∨ e.waits = false)
    (ht : exec .timeoutAny p.a = .next t) : p.step (.link e) = .next ⟨t, p.b⟩ := by
  obtain ⟨tx, htx⟩ := State.exists_tx_of_busy hb
  have hno : ¬ (p.b.st = .idle ∧ p.b.tradeToCome = true ∧ e.waits = true) :=
    fun ⟨hs, _, hy⟩ => hw.elim (· hs) fun h => Bool.false_ne_true (h.symm.trans hy)
  have hto : p.a.linkStep .timeout = .next t := (State.linkStep_timeout hb).trans ht
  rw [Pair.step_aloneA htx (State.tx_of_not_busy hn), State.aloneStep_timeout hno, hto, Pair.both_next]

end

/-- Steps that change nothing. -/
theorem Pair.run_replicate {e : PairEvent} {p : Pair} (h : p.step e = .next p) (n : Nat) :
    Pair.run (List.replicate n e) p = .next p := by
  induction n with
  | zero => rfl
  | succ n ih => rw [List.replicate_succ, Pair.run_cons h, ih]

/-- R251: a `'t'` that the host offers next is still to come. -/
theorem State.tradeToCome_of_inputs {s : State} {xs : List Input} (h : s.inputs = .host [0x74] :: xs) :
    s.tradeToCome = true := by
  simp [State.tradeToCome, h, tradeByte]

section
variable {p : Pair} {xs ys : List Input} {a b : State}

/-- R166(c): A starts, waits for any number of steps, and B starts. -/
theorem Pair.run_start (ha : p.a.st = .idle) (hb : p.b.st = .idle) (hha : p.a.held = []) (hhb : p.b.held = [])
    (hia : p.a.inputs = .host [0x74] :: xs) (hib : p.b.inputs = .host [0x74] :: ys)
    (hta : exec .cmdTrade { p.a with inputs := xs } = .next a) (hsa : a.st = .hsMode)
    (htb : exec .cmdTrade { p.b with inputs := ys } = .next b) (n : Nat) :
    Pair.run (.ownA :: (List.replicate n (.link .clean) ++ [.ownB])) p = .next ⟨a, b⟩ := by
  have hwait : Pair.step (.link .clean) ⟨a, p.b⟩ = .next ⟨a, p.b⟩ :=
    Pair.step_waitA (by rw [hsa]; rfl) hb (State.tradeToCome_of_inputs hib) rfl
  rw [Pair.run_cons (Pair.step_tradeA ha hha hia hta), Pair.run_concat (Pair.run_replicate hwait n)]
  exact Pair.step_tradeB (p := ⟨a, p.b⟩) hb hhb hib htb

/-- R166(c): A starts, does not wait for B in `IDLE`, and fails. -/
theorem Pair.exists_run_start_timeout (ha : p.a.st = .idle) (hb : p.b.st = .idle) (hha : p.a.held = [])
    (hia : p.a.inputs = .host [0x74] :: xs) (hta : exec .cmdTrade { p.a with inputs := xs } = .next a)
    (hsa : a.st = .hsMode) :
    ∃ t, exec .timeoutAny a = .next t ∧ t.st = .failed ∧ t.err = .linkTimeout ∧
      Pair.run [.ownA, .link ⟨none, none, false⟩] p = .next ⟨t, p.b⟩ := by
  have hbusy : a.st.busy = true := by rw [hsa]; rfl
  obtain ⟨t, ht, hst, herr, -⟩ := exists_timeout hbusy
  refine ⟨t, ht, hst, herr, ?_⟩
  rw [Pair.run_cons (Pair.step_tradeA ha hha hia hta)]
  exact Pair.run_cons (Pair.step_timeoutA (p := ⟨a, p.b⟩) hbusy (by rw [hb]; rfl) (.inr rfl) ht)

end

/-- Settles O59: the joint steps of two clean attempts, and the start of each side by its own host. -/
theorem loopbackTradeCompletes : Obligations.LoopbackTradeCompletes := by
  refine ⟨fun p ha hb hsa hsb hmode hmaster hversion hack hsel hn => ?trade,
    fun p xs ys n ha hb hha hhb hia hib => ?start⟩
  case trade =>
    obtain ⟨q, hrun, hqa, hqb⟩ :=
      Pair.exists_reached ha hb hsa hsb ⟨hmode, hmaster, hversion, hack, hsel, hn⟩ le_rfl
    obtain ⟨hca, hcorea, htrailera⟩ := hqa.complete
    obtain ⟨hcb, hcoreb, htrailerb⟩ := State.Reached.complete (hn ▸ hqb)
    exact ⟨q, hrun, hca, hcb, fun i hi => ⟨hcorea i hi, hcoreb i hi⟩,
      fun hw i hlo hhi => (htrailera i hlo hhi).trans (if_pos hw),
      fun hw i hlo hhi => (htrailerb i hlo hhi).trans (if_pos hw)⟩
  case start =>
    obtain ⟨a, hta, hsa⟩ := exists_trade (s := { p.a with inputs := xs }) ha
    obtain ⟨b, htb, hsb⟩ := exists_trade (s := { p.b with inputs := ys }) hb
    have hswap : Pair.run _ p.swap = _ := Pair.run_start (p := p.swap) hb ha hhb hha hib hia htb hsb hta n
    obtain ⟨t, ht, hst, herr, hto⟩ := Pair.exists_run_start_timeout (p := p.swap) hb ha hhb hib htb hsb
    refine ⟨a, b, hta, htb, Pair.run_start ha hb hha hhb hia hib hta hsa htb n, ?_,
      Pair.exists_run_start_timeout ha hb hha hia hta hsa, t, ht, hst, herr, Pair.run_swap hto⟩
    simpa [PairEvent.swap, LinkEvent.clean, Pair.swap] using Pair.run_swap hswap

/-! ### A corrupted handshake (R182, R183, R194) -/

/-- R182, R194: a side that began in `s` with a fresh budget and has received nothing but mismatches in the
handshake phase `ph`, `m` of them. -/
structure State.Mismatched (s : State) (ph : Phase) (m : Nat) (t : State) : Prop where
  params : t.params = s.params
  rcv : t.rcv = s.rcv
  retrying : m ≤ s.params.retryBudget → t.st = ph ∧ t.retry = m
  failed : s.params.retryBudget < m → t.st = .failed ∧ t.err = .handshakeMismatch

/-- R182, R183: what the sub-steps `HS_MODE` and `HS_MASTER` do with a byte that is not their code. -/
theorem State.answered_mismatch {s : State} (hs : s.st = .hsMode ∨ s.st = .hsMaster) {tx rx : Byte}
    (htx : s.tx = some tx) (hne : rx ≠ tx) :
    s.answered (.byte rx) = .next (if s.retry < s.params.retryBudget then
      { s.swapped tx (.byte rx) with retry := s.retry + 1 }
      else (s.swapped tx (.byte rx)).raised .handshakeMismatch) := by
  rcases hs with hs | hs <;> simp only [State.tx, hs, Option.some.injEq] at htx <;> subst htx
  · exact answered_of_exec (i := .hsMode rx) rfl (((handshakeSubSteps s rx).1 hs).trans (congrArg _ (if_neg hne)))
  · exact answered_of_exec (i := .hsMaster rx) rfl (((handshakeSubSteps s rx).2.1 hs).trans (congrArg _ (if_neg hne)))

/-- R182: one more mismatch uses up a retry, or fails the attempt. -/
theorem State.Mismatched.answered {s t : State} {ph : Phase} {m : Nat} (h : s.Mismatched ph m t)
    (hph : ph = .hsMode ∨ ph = .hsMaster) (hm : m ≤ s.params.retryBudget) {tx rx : Byte} (htx : t.tx = some tx)
    (hne : rx ≠ tx) : ∃ u, t.answered (.byte rx) = .next u ∧ s.Mismatched ph (m + 1) u := by
  obtain ⟨hst, hr⟩ := h.retrying hm
  refine ⟨_, State.answered_mismatch (hst ▸ hph) htx hne, ?_⟩
  rw [hr, h.params]
  by_cases hlt : m < s.params.retryBudget
  · rw [if_pos hlt]
    exact ⟨h.params, h.rcv, fun _ => ⟨hst, rfl⟩, fun hgt => by omega⟩
  · rw [if_neg hlt]
    exact ⟨h.params, h.rcv, fun hle => by omega, fun _ => ⟨rfl, rfl⟩⟩

/-- R182: the start of an attempt, before any mismatch. -/
theorem State.Mismatched.start {s : State} (hs : s.st = .hsMode) (hr : s.retry = 0) : s.Mismatched .hsMode 0 s :=
  ⟨rfl, rfl, fun _ => ⟨hs, hr⟩, fun h => absurd h (Nat.not_lt_zero _)⟩

theorem State.Mismatched.tx_hsMode {s t : State} {m : Nat} (h : s.Mismatched .hsMode m t)
    (hm : m ≤ s.params.retryBudget) : t.tx = some s.params.modeCode := by
  simp only [State.tx, (h.retrying hm).1, h.params]

/-- R182, R194: a side that began in `s`, received its mode code once and then nothing but mismatches in
`HS_MASTER`, `m` bytes in all. -/
def State.Ahead (s : State) : Nat → State → Prop
  | 0, t => s.Mismatched .hsMode 0 t
  | m + 1, t => s.Mismatched .hsMaster m t

theorem State.Ahead.busy {s t : State} {m : Nat} (h : s.Ahead m t) (hm : m ≤ s.params.retryBudget + 1) :
    t.st.busy = true := by
  cases m with
  | zero => rw [(State.Mismatched.retrying h (Nat.zero_le _)).1]; rfl
  | succ m => rw [(State.Mismatched.retrying h (Nat.le_of_succ_le_succ hm)).1]; rfl

theorem State.Ahead.rcv {s t : State} {m : Nat} (h : s.Ahead m t) : t.rcv = s.rcv := by
  cases m <;> exact State.Mismatched.rcv h

/-- R183: a side that is ahead of its peer receives a mode byte: its code the first time, then a mismatch. -/
theorem State.Ahead.answered {s t : State} {m : Nat} (h : s.Ahead m t) (hm : m ≤ s.params.retryBudget)
    (hne : s.params.masterCode ≠ s.params.modeCode) :
    ∃ u, t.answered (.byte s.params.modeCode) = .next u ∧ s.Ahead (m + 1) u := by
  cases m with
  | zero =>
    have hst : t.st = .hsMode := (State.Mismatched.retrying h (Nat.zero_le _)).1
    have hcode : s.params.modeCode = t.params.modeCode := by rw [h.params]
    refine ⟨_, answered_of_exec (i := .hsMode _) rfl
      (((handshakeSubSteps t _).1 hst).trans (congrArg _ (if_pos hcode))), ?_⟩
    exact ⟨h.params, h.rcv, fun _ => ⟨rfl, rfl⟩, fun hgt => absurd hgt (Nat.not_lt_zero _)⟩
  | succ m =>
    have hst : t.st = .hsMaster := (State.Mismatched.retrying h (by omega)).1
    have htx : t.tx = some s.params.masterCode := by simp only [State.tx, hst, h.params]
    exact State.Mismatched.answered h (.inr rfl) (by omega) htx hne.symm

/-- R194: the bytes that B receives are corrupted, and A's are not. -/
def Pair.AheadOf (p : Pair) (m : Nat) (q : Pair) : Prop := p.a.Ahead m q.a ∧ p.b.Mismatched .hsMode m q.b

/-- R194: both sides receive nothing but corrupted bytes. -/
def Pair.Mismatched (p : Pair) (m : Nat) (q : Pair) : Prop :=
  p.a.Mismatched .hsMode m q.a ∧ p.b.Mismatched .hsMode m q.b

section
variable {p q : Pair} {m : Nat} {e : LinkEvent} {x y : Byte}

theorem Pair.AheadOf.step (h : p.AheadOf m q) (hbudget : p.a.params.retryBudget = p.b.params.retryBudget)
    (hmode : p.a.params.modeCode = p.b.params.modeCode) (hne : p.a.params.masterCode ≠ p.a.params.modeCode)
    (hm : m ≤ p.b.params.retryBudget) (ha : e.toA = none) (hb : e.toB = some x) (hx : x ≠ p.b.params.modeCode) :
    ∃ r, q.step (.link e) = .next r ∧ p.AheadOf (m + 1) r := by
  obtain ⟨hqa, hqb⟩ := h
  obtain ⟨ta, hta⟩ := State.exists_tx_of_busy (hqa.busy (by omega))
  have htb := hqb.tx_hsMode hm
  obtain ⟨a, hqa', hra⟩ := hqa.answered (by omega) hne
  obtain ⟨b, hqb', hrb⟩ := hqb.answered (.inl rfl) hm htb hx
  refine ⟨⟨a, b⟩, ?_, hra, hrb⟩
  rw [Pair.step_busy hta htb, ha, hb]
  exact Pair.both_eq_next.mpr ⟨hmode ▸ hqa', hqb'⟩

theorem Pair.Mismatched.step (h : p.Mismatched m q) (hbudget : p.a.params.retryBudget = p.b.params.retryBudget)
    (hm : m ≤ p.b.params.retryBudget) (ha : e.toA = some y) (hy : y ≠ p.a.params.modeCode) (hb : e.toB = some x)
    (hx : x ≠ p.b.params.modeCode) : ∃ r, q.step (.link e) = .next r ∧ p.Mismatched (m + 1) r := by
  obtain ⟨hqa, hqb⟩ := h
  have hta := hqa.tx_hsMode (by omega)
  have htb := hqb.tx_hsMode hm
  obtain ⟨a, hqa', hra⟩ := hqa.answered (.inl rfl) (by omega) hta hy
  obtain ⟨b, hqb', hrb⟩ := hqb.answered (.inl rfl) hm htb hx
  refine ⟨⟨a, b⟩, ?_, hra, hrb⟩
  rw [Pair.step_busy hta htb, ha, hb]
  exact Pair.both_eq_next.mpr ⟨hqa', hqb'⟩

end

/-- R39: at the start of an attempt nothing has been received. -/
theorem State.Inv.read_hsMode {s : State} (h : s.Inv) (hs : s.st = .hsMode) (a : Nat) : s.rcv.read a = 0x00 :=
  h.untouched a (State.untouched_early (.inl hs))

section
variable {p : Pair} {es : List LinkEvent} (hsa : p.a.st = .hsMode) (hsb : p.b.st = .hsMode) (hra : p.a.retry = 0)
  (hrb : p.b.retry = 0) (hbudget : p.a.params.retryBudget = p.b.params.retryBudget)
  (hlen : es.length ≤ p.b.params.retryBudget + 1) (htoB : ∀ e ∈ es, ∃ x, e.toB = some x ∧ x ≠ p.b.params.modeCode)
include hsa hsb hra hrb hbudget hlen htoB

/-- R194: joint steps in which only what B receives is corrupted. -/
theorem Pair.exists_aheadOf (hmode : p.a.params.modeCode = p.b.params.modeCode)
    (hne : p.a.params.masterCode ≠ p.a.params.modeCode) (htoA : ∀ e ∈ es, e.toA = none) :
    ∃ q, Pair.run (es.map .link) p = .next q ∧ p.AheadOf es.length q := by
  have hstart : p.AheadOf 0 p := ⟨.start hsa hra, .start hsb hrb⟩
  obtain ⟨q, hrun, hq⟩ := Pair.exists_run (es := es.map .link) hstart fun m q e he hm hq => by
    obtain ⟨l, hl, rfl⟩ := List.mem_map.mp he
    rw [List.length_map] at hm
    obtain ⟨x, hx, hxne⟩ := htoB l hl
    exact hq.step hbudget hmode hne (by omega) (htoA l hl) hx hxne
  exact ⟨q, hrun, by rwa [List.length_map] at hq⟩

/-- R194: joint steps in which all that both sides receive is corrupted. -/
theorem Pair.exists_mismatched (htoA : ∀ e ∈ es, ∃ x, e.toA = some x ∧ x ≠ p.a.params.modeCode) :
    ∃ q, Pair.run (es.map .link) p = .next q ∧ p.Mismatched es.length q := by
  have hstart : p.Mismatched 0 p := ⟨.start hsa hra, .start hsb hrb⟩
  obtain ⟨q, hrun, hq⟩ := Pair.exists_run (es := es.map .link) hstart fun m q e he hm hq => by
    obtain ⟨l, hl, rfl⟩ := List.mem_map.mp he
    rw [List.length_map] at hm
    obtain ⟨y, hy, hyne⟩ := htoA l hl
    obtain ⟨x, hx, hxne⟩ := htoB l hl
    exact hq.step hbudget (by omega) hy hyne hx hxne
  exact ⟨q, hrun, by rwa [List.length_map] at hq⟩

end

/-! ### A reset in mid-attempt (R271) -/

/-- R271: A is reset in mid-attempt, and the attempt of its busy peer times out in the same step. -/
theorem exists_abandonA {p : Pair} {xs : List Input} (ha : p.a.st.busy = true) (hb : p.b.st.busy = true)
    (hi : p.a.inputs = .reset :: xs) {t : State} (ht : exec .timeoutAny p.b = .next t) :
    ∃ u, step p.a = .next u ∧ p.step .ownA = .next ⟨u, t⟩ ∧ u.st = .idle ∧ u.reports = p.a.reports ∧
      u.wire = p.a.wire ∧ u.inputs = xs ∧ u.held = p.a.held := by
  have ht : execTimeoutAny p.b = .next t := ht
  exact ⟨_, step_of_pending_reset (State.pending_busy ha hi), by rw [Pair.step_abandonA ha hb hi, ht, Pair.both_next],
    rfl, rfl, rfl, rfl, rfl⟩

/-- R166(b), R271: the whole course of A's reset: its peer has failed, and A, started again, times out. -/
theorem exists_run_abandonA {p : Pair} {xs : List Input} (ha : p.a.st.busy = true) (hb : p.b.st.busy = true)
    (hi : p.a.inputs = .reset :: xs) (e : LinkEvent) :
    ∃ u t : State,
      step p.a = .next u ∧ u.st = .idle ∧ u.reports = p.a.reports ∧ u.wire = p.a.wire ∧
      exec .timeoutAny p.b = .next t ∧ t.st = .failed ∧ t.err = .linkTimeout ∧
      Pair.run [.ownA] p = .next ⟨u, t⟩ ∧ Pair.run [.ownA, .link e] p = .next ⟨u, t⟩ ∧
      ∀ ys, xs = .host [0x74] :: ys → p.a.held = [] → ∃ v w : State,
        exec .cmdTrade { u with inputs := ys } = .next v ∧ Pair.run [.ownA, .ownA] p = .next ⟨v, t⟩ ∧
        exec .timeoutAny v = .next w ∧ Pair.run [.ownA, .ownA, .link e] p = .next ⟨w, t⟩ := by
  obtain ⟨t, ht, hst, herr, -⟩ := exists_timeout hb
  obtain ⟨u, hu, hstep, hidle, hreports, hwire, hinputs, hheld⟩ := exists_abandonA ha hb hi ht
  have htn : t.st.busy = false := by rw [hst]; rfl
  have hrest : Pair.step (.link e) ⟨u, t⟩ = .next ⟨u, t⟩ :=
    Pair.step_none (State.tx_of_not_busy (by rw [hidle]; rfl)) (State.tx_of_not_busy htn)
  refine ⟨u, t, hu, hidle, hreports, hwire, ht, hst, herr, Pair.run_cons hstep,
    (Pair.run_cons hstep).trans (Pair.run_cons hrest), fun ys hxs hh => ?_⟩
  obtain ⟨v, hv, hsv⟩ := exists_trade (s := { u with inputs := ys }) hidle
  obtain ⟨w, hw, -⟩ := exists_timeout (s := v) (by rw [hsv]; rfl)
  have hagain : Pair.step .ownA ⟨u, t⟩ = .next ⟨v, t⟩ :=
    Pair.step_tradeA (p := ⟨u, t⟩) hidle (hheld.trans hh) (hinputs.trans hxs) hv
  have hto : Pair.step (.link e) ⟨v, t⟩ = .next ⟨w, t⟩ :=
    Pair.step_timeoutA (p := ⟨v, t⟩) (by rw [hsv]; rfl) htn (.inl (by simp [hst])) hw
  exact ⟨v, w, hv, (Pair.run_cons hstep).trans (Pair.run_cons hagain), hw,
    (Pair.run_cons hstep).trans ((Pair.run_cons hagain).trans (Pair.run_cons hto))⟩

/-- Settles O60: B's budget is used up by as many mismatches as its length and one more, which A outlives by one
exchange if it sees no corruption; a reset is R271's. -/
theorem corruptedHandshakeFailsBothSides : Obligations.CorruptedHandshakeFailsBothSides := by
  refine ⟨fun p es ha hb hsa hsb hra hrb hbudget hmode hne htoB => ⟨fun htoA hlen => ?oneSided, fun htoA hlen => ?both⟩,
    fun p xs e ha hb => ⟨fun hi => exists_run_abandonA ha hb hi e, fun hi => ?resetB⟩⟩
  case oneSided =>
    rcases List.eq_nil_or_concat' es with rfl | ⟨es, e, rfl⟩
    · cases hlen
    simp only [List.length_append, List.length_singleton] at hlen
    obtain ⟨q, hrun, hqa, hqb⟩ := Pair.exists_aheadOf hsa hsb hra hrb hbudget (by omega)
      (fun e he => htoB e (List.mem_append_left _ he)) hmode hne (fun e he => htoA e (List.mem_append_left _ he))
    obtain ⟨hst, herr⟩ := hqb.failed (by omega)
    have hbusy := hqa.busy (by omega)
    obtain ⟨t, ht, hta, hea, hrcv⟩ := exists_timeout hbusy
    refine ⟨⟨t, q.b⟩, ?_, hta, hea, hst, herr, fun a => ⟨?_, ?_⟩⟩
    · rw [List.map_append, List.map_singleton, Pair.run_concat hrun]
      exact Pair.step_timeoutA hbusy (by rw [hst]; rfl) (.inl (by simp [hst])) ht
    · rw [hrcv, hqa.rcv, ha.read_hsMode hsa]
    · rw [hqb.rcv, hb.read_hsMode hsb]
  case both =>
    obtain ⟨q, hrun, hqa, hqb⟩ := Pair.exists_mismatched hsa hsb hra hrb hbudget (by omega) htoB htoA
    obtain ⟨hsta, herra⟩ := hqa.failed (by omega)
    obtain ⟨hstb, herrb⟩ := hqb.failed (by omega)
    exact ⟨q, hrun, hsta, herra, hstb, herrb,
      fun a => ⟨by rw [hqa.rcv, ha.read_hsMode hsa], by rw [hqb.rcv, hb.read_hsMode hsb]⟩⟩
  case resetB =>
    obtain ⟨u, t, hu, hidle, hreports, hwire, ht, hst, herr, hrun, hrun', hagain⟩ :=
      exists_run_abandonA (p := p.swap) hb ha hi ⟨e.toB, e.toA, e.waits⟩
    refine ⟨u, t, hu, hidle, hreports, hwire, ht, hst, herr, Pair.run_swap hrun, Pair.run_swap hrun',
      fun ys hxs hh => ?_⟩
    obtain ⟨v, w, hv, hrunv, hw, hrunw⟩ := hagain ys hxs hh
    exact ⟨v, w, hv, Pair.run_swap hrunv, hw, Pair.run_swap hrunw⟩

end Sys2Proof.Machine

/-! Proofs of the dispatcher statements (spec/43_dispatcher.md): what each command does, what a busy block does
with a command byte, and where reports are emitted. -/

namespace Sys2Proof.Machine

/-! ### The commands (R220 to R225) -/

/-- R220: the two operations that are the `'h'` command in a block that is not busy. -/
def isHelp (i : Instr) : Prop := i = .cmdHelp ∨ i = .cmdWhileBusy 0x68

/-- R223: every byte that is neither `'t'` nor `'h'` is a `CMD_NOP`. -/
theorem decodeCommand_of_ne {b : Byte} (ht : b ≠ tradeByte) (hh : b ≠ helpByte) : decodeCommand b = .cmdNop b := by
  rw [decodeCommand, if_neg ht, if_neg hh]

/-- Log entry 14: `CMD_WHILE_BUSY` means what the command that its byte decodes to does, in every state. -/
theorem exec_cmdWhileBusy (b : Byte) (s : State) : exec (.cmdWhileBusy b) s = exec (decodeCommand b) s := by
  obtain ⟨rfl, hd⟩ | ⟨rfl, hd⟩ | ⟨ht, hh, hd⟩ := decodeCommand_cases b <;> rw [hd]
  · simp only [exec, execCmdWhileBusy, execCmdTrade, if_true]
  · have hne : helpByte ≠ tradeByte := by decide
    simp only [exec, execCmdWhileBusy, execCmdHelp, hne, if_true, if_false]
  · simp only [exec, execCmdWhileBusy, execCmdNop, ht, hh, or_self, if_false]

/-- R225: a busy block offers every command byte to the busy policy. -/
theorem exec_cmdWhileBusy_of_busy {s : State} (hb : s.st.busy = true) (b : Byte) :
    exec (.cmdWhileBusy b) s = .next (s.offerWhileBusy b) := if_pos hb

/-- R222: what the `'h'` command does to a block that is not busy. -/
theorem exec_help {i : Instr} {s : State} (hb : s.st.busy = false) (hi : isHelp i) :
    exec i s = .next (s.emit (.help s.params.helpText)) := by
  have hhelp : exec .cmdHelp s = .next (s.emit (.help s.params.helpText)) := if_neg (by simp [hb])
  rcases hi with rfl | rfl
  · exact hhelp
  · exact (exec_cmdWhileBusy 0x68 s).trans hhelp

/-- R223: what any other command byte does to a block that is not busy. -/
theorem exec_cmdNop {s : State} {b : Byte} (hb : s.st.busy = false) (ht : b ≠ tradeByte) (hh : b ≠ helpByte) :
    exec (.cmdNop b) s = .next s := by
  simp [exec, execCmdNop, ht, hh, hb]

/-! ### Reports (R226) -/

/-- The effects that emit a report; no other enters a terminal state. -/
theorem Effect.reports {s t : State} (e : Effect s t) :
    (s.st.busy = true ∧ t.st = .complete ∧ t.reports = s.reports ++ [.result .complete .none t.rcv.slot]) ∨
    (s.st.busy = true ∧ t.st = .failed ∧ t.reports = s.reports ++ [.result .failed t.err t.rcv.slot]) ∨
    (s.st.busy = false ∧ t = s.emit (.help s.params.helpText)) ∨
    (t.reports = s.reports ∧ (t.st = .complete ∨ t.st = .failed → t.st = s.st)) := by
  cases e with
  | confirmed _ _ hs => exact .inl ⟨by rw [hs]; rfl, rfl, rfl⟩
  | failed _ _ _ hb => exact .inr (.inl ⟨hb, rfl, rfl⟩)
  | helped hb => exact .inr (.inr (.inl ⟨hb, rfl⟩))
  | matched _ _ q hq =>
    refine .inr (.inr (.inr ⟨rfl, ?_⟩))
    rcases matchedTo_cases hq with ⟨-, rfl⟩ | ⟨-, rfl⟩ <;> exact nofun
  | _ => exact .inr (.inr (.inr (by simp)))

/-- A command byte that a block which is not busy accepts emits a report only if it is `'h'`. -/
theorem reports_of_decodeCommand {b : Byte} {s t : State} (hb : s.st.busy = false) (hh : b ≠ helpByte)
    (h : exec (decodeCommand b) s = .next t) : t.reports = s.reports := by
  obtain ⟨-, hd⟩ | ⟨he, -⟩ | ⟨ht, -, hd⟩ := decodeCommand_cases b
  · rw [hd, exec_trade hb (.inl rfl)] at h
    rw [← Host.Outcome.next.inj h, State.startAttempt_reports]
  · exact absurd he hh
  · rw [hd, exec_cmdNop hb ht hh] at h
    cases h
    rfl

/-- R226: in a block that is not busy, no operation but `'h'` emits a report. -/
theorem reports_of_not_help {i : Instr} {s t : State} (hb : s.st.busy = false) (hi : ¬ isHelp i)
    (h : exec i s = .next t) : t.reports = s.reports := by
  by_cases hc : i.isCodec = true
  · obtain ⟨value, hv⟩ := exists_computes hc
    rw [hv] at h
    obtain ⟨-, rfl⟩ := State.compute_next.mp h
    rfl
  cases i with
  | cmdTrade => exact reports_of_decodeCommand (b := tradeByte) hb (by decide) h
  | cmdHelp => exact absurd (.inl rfl) hi
  | cmdNop b =>
    simp only [exec, execCmdNop, hb] at h
    split at h
    · cases h
    · cases h
      rfl
  | cmdWhileBusy b =>
    rw [exec_cmdWhileBusy] at h
    exact reports_of_decodeCommand hb (fun he => hi (.inr (congrArg Instr.cmdWhileBusy he))) h
  | configure c =>
    simp only [exec, execConfigure, hb] at h
    cases h
    rfl
  | hsMode | hsMaster | hsVersion | entropy | metadata | select | record | confirm | timeoutAny | xchg =>
    rw [busy_of_answered (answered_of_exec rfl h)] at hb
    cases hb
  | _ => exact absurd rfl hc

/-- Settles O52: the effects that emit, and only `'h'` has the effect of the help report; a `CMD_HELP` that
emits nothing was offered to a busy block. -/
theorem reportsAtThreePoints : Obligations.ReportsAtThreePoints := by
  intro i s t h
  rcases (exec_effect h).reports with hc | hf | ⟨hb, rfl⟩ | ⟨hr, hst⟩
  · exact .inl hc
  · exact .inr (.inl hf)
  · refine .inr (.inr (.inl ⟨hb, rfl, rfl, ?_⟩))
    by_contra hi
    simpa using reports_of_not_help hb hi h
  · by_cases hi : i = .cmdHelp
    · subst hi
      cases hb : s.st.busy with
      | false =>
        rw [exec_help hb (.inl rfl)] at h
        cases h
        exact absurd hr (by simp)
      | true =>
        have hoffer := (exec_cmdWhileBusy 0x68 s).symm.trans (exec_cmdWhileBusy_of_busy hb 0x68)
        cases h.symm.trans hoffer
        exact .inr (.inr (.inr (.inr ⟨hr, rfl, rfl, s.offerWhileBusy_st _⟩)))
    · exact .inr (.inr (.inr (.inl ⟨hr, hst, hi⟩)))

/-! ### The command statements -/

/-- Settles O33: the accepted `'t'` is `startAttempt`, whose `OUT` is the slot written whole. -/
theorem tradeStartsAFreshAttempt : Obligations.TradeStartsAFreshAttempt := by
  intro s hb
  have hwf := wf_buildL1 s.config.template s.config.trainerName s.config.trainerId
  have hlen := length_encSlot s.params.layout hwf
  refine ⟨.ofBytes _, .zero, _, ?start, exec_encSlot hwf s, hlen, Memory.wf_ofBytes hlen.le, Memory.read_ofBytes _,
    Memory.wf_zero, Memory.read_zero⟩
  rw [exec_trade hb (.inl rfl), State.startAttempt]

/-- Settles O34: `exec_help`. -/
theorem helpReportsAndChangesNothing : Obligations.HelpReportsAndChangesNothing :=
  fun _ hb => exec_help hb (.inl rfl)

/-- Settles O35: `exec_cmdNop`. -/
theorem otherBytesAreNoOps : Obligations.OtherBytesAreNoOps :=
  fun _ _ hb ht hh => exec_cmdNop hb ht hh

/-- Settles O36: the policies are `offerWhileBusy`'s, a held byte is what a block that is not busy consumes next,
and the command rows are `exec_cmdWhileBusy`'s. -/
theorem busyCommandIsHeldOrDropped : Obligations.BusyCommandIsHeldOrDropped := by
  refine ⟨fun s b hb => ⟨decodeHost_busy hb b, fun hp => ?hold, fun hp => ?drop⟩, fun s b bs hb hh => ?accept,
    fun s => ⟨(exec_cmdWhileBusy 0x74 s).symm, (exec_cmdWhileBusy 0x68 s).symm, fun b ht hh => ?nop⟩⟩
  case hold => rw [exec_cmdWhileBusy_of_busy hb, State.offerWhileBusy_eq, if_pos hp]
  case drop => rw [exec_cmdWhileBusy_of_busy hb, State.offerWhileBusy_eq, if_neg (by simp [hp])]
  case accept => exact step_eq_exec (State.pending_held hb hh) (decodeHost_accepted hb b)
  case nop => rw [exec_cmdWhileBusy, decodeCommand_of_ne ht hh]

/-- Settles O55: what `startAttempt` writes is read from the parameters and the configuration inputs. -/
theorem attemptsAreIndependent : Obligations.AttemptsAreIndependent := by
  intro s s' t t' hb hb' hp hc h h'
  obtain rfl := Host.Outcome.next.inj ((exec_trade hb (.inl rfl)).symm.trans h)
  obtain rfl := Host.Outcome.next.inj ((exec_trade hb' (.inl rfl)).symm.trans h')
  simp [hp, hc]

end Sys2Proof.Machine

/-! Proofs of the exception statements (spec/60_exceptions.md): how an operation enters `FAILED`, and how one
leaves it. -/

namespace Sys2Proof.Machine

/-! ### Into `FAILED` (R241, R244) -/

/-- R241, R244: the only effect that enters `FAILED` is an exchange of a busy block that raises a cause. -/
theorem Effect.enters_failed {s t : State} (e : Effect s t) (ht : t.st = .failed) (hs : s.st ≠ .failed) :
    s.st.busy = true ∧ ∃ tx ans c, c ≠ .none ∧ t = (s.exchanged tx ans).fail c := by
  cases e with
  | failed tx ans c hb hc => exact ⟨hb, tx, ans, c, hc, rfl⟩
  | computed | configured | nothing | offered | helped | retried | filled | described | stored =>
    exact absurd (by simpa using ht) hs
  | matched _ _ q hq => rcases matchedTo_cases hq with ⟨-, rfl⟩ | ⟨-, rfl⟩ <;> cases ht
  | started => rw [State.startAttempt_st] at ht; cases ht
  | agreed | filledAll | describedAll | selected | storedAll | confirmed => cases ht

/-- Settles O51: the raise of `Effect.enters_failed` writes `st`, `err` and the report, and the exchange before
it leaves the block as it is. -/
theorem failuresArePrecise : Obligations.FailuresArePrecise := by
  intro i s t h ht hs
  obtain ⟨hb, tx, ans, c, hc, rfl⟩ := (exec_effect h).enters_failed ht hs
  exact ⟨hb, hc, rfl, rfl, rfl, rfl, rfl⟩

/-! ### Out of `FAILED` (R246, R285) -/

/-- R162: an operation that takes place in a block that is not busy answers no exchange. -/
theorem answerOf_of_not_busy {i : Instr} {s t : State} (hb : s.st.busy = false) (h : exec i s = .next t) :
    answerOf i = none := by
  cases hi : answerOf i with
  | none => rfl
  | some ans => exact absurd (busy_of_answered (answered_of_exec hi h)) (by simp [hb])

/-- Settles O53: a failed block is not busy, so an operation is the accepted `'t'`, which is `startAttempt`, or
leaves the block as it is. -/
theorem failedIsLeftOnlyByTrade : Obligations.FailedIsLeftOnlyByTrade := by
  intro i s t hs h
  have hb : s.st.busy = false := by rw [hs]; rfl
  by_cases hi : isTrade i
  · obtain rfl := Host.Outcome.next.inj (h.symm.trans (exec_trade hb hi))
    exact .inr ⟨exec_trade hb (.inl rfl), hi, by simp⟩
  · have hsame := sameBlock_of_no_answer (answerOf_of_not_busy hb h) (fun ht => hi ht.2) h
    exact .inl ⟨hsame.st.trans hs, hsame.err, hsame.rcv, hsame.out, hsame.idx, hsame.retry⟩

end Sys2Proof.Machine

/-! Proofs of the reset and hazard statements (spec/70_reset_and_hazards.md): what an operation leaves of its
environment. -/

namespace Sys2Proof.Machine

/-- R272: no operation changes the configuration inputs. -/
theorem Effect.config_eq {s t : State} (e : Effect s t) : t.config = s.config := by
  cases e <;> simp

/-- R32: only an exchange writes on the wire, and it appends. -/
theorem Effect.wire_prefix {s t : State} (e : Effect s t) : s.wire <+: t.wire := by
  cases e with
  | computed | configured | nothing | offered | started | helped | described | describedAll => simp
  | _ => exact List.prefix_append s.wire _

/-- R226: what is reported is appended to the reports before it. -/
theorem Effect.reports_prefix {s t : State} (e : Effect s t) : s.reports <+: t.reports := by
  rcases e.reports with ⟨-, -, hr⟩ | ⟨-, -, hr⟩ | ⟨-, rfl⟩ | ⟨hr, -⟩
  · exact hr ▸ List.prefix_append ..
  · exact hr ▸ List.prefix_append ..
  · exact List.prefix_append ..
  · exact hr ▸ List.prefix_rfl

/-- R225: a command byte that a busy block holds goes behind the bytes held before it. -/
theorem State.held_prefix_offerWhileBusy (b : Byte) (s : State) : s.held <+: (s.offerWhileBusy b).held := by
  rw [State.offerWhileBusy_eq]
  by_cases h : s.params.busyPolicy = .hold <;> simp [h]

/-- R225: no operation but a command byte offered while busy touches the held bytes. -/
theorem Effect.held_prefix {s t : State} (e : Effect s t) : s.held <+: t.held := by
  cases e with
  | offered b => exact s.held_prefix_offerWhileBusy b
  | _ => simp

/-- R185: an exchange consumes at most the first draw. -/
theorem State.draws_suffix_exchanged (tx : Byte) (ans : Answer) (s : State) :
    (s.exchanged tx ans).draws <:+ s.draws := by
  rw [State.exchanged_draws]
  split
  · exact List.tail_suffix _
  · exact List.suffix_rfl

/-- R185: what an operation leaves of the draws is what an exchange leaves, or all of them. -/
theorem Effect.draws_suffix {s t : State} (e : Effect s t) : t.draws <:+ s.draws := by
  cases e with
  | computed | configured | nothing | offered | started | helped => simp
  | described tx rx | describedAll tx rx => simpa using s.draws_suffix_exchanged tx (.byte rx)
  | failed tx ans => exact s.draws_suffix_exchanged tx ans
  | matched tx rx | agreed tx rx | retried tx rx | filled tx rx | filledAll tx rx | selected tx rx | stored tx rx
  | storedAll tx rx | confirmed tx rx => exact s.draws_suffix_exchanged tx (.byte rx)

/-- Settles O56: each of the seven is a fact about every `Effect`. -/
theorem operationsLeaveTheEnvironmentAlone : Obligations.OperationsLeaveTheEnvironmentAlone := by
  intro i s t h
  have e := exec_effect h
  exact ⟨e.params_eq, e.config_eq, e.inputs_eq, e.wire_prefix, e.reports_prefix, e.held_prefix, e.draws_suffix⟩

end Sys2Proof.Machine

/-! Proof of the statement on the host's interface (log entry 8): the step that follows `withFetchWord`. -/

namespace Sys2Proof.Machine

/-- R220: every state that `withFetchWord` gives accepts command bytes. -/
@[simp] theorem State.busy_withFetchWord (s : State) (nbits w : Nat) : (s.withFetchWord nbits w).st.busy = false := by
  change (if s.st.busy then Phase.idle else s.st).busy = false
  split
  next => rfl
  next h => exact Bool.eq_false_of_not_eq_true h

/-- The table word is consumed before the bytes the host transport held and what was offered before. -/
theorem State.pending_withFetchWord (s : State) (nbits w : Nat) :
    (s.withFetchWord nbits w).pending = some (.host (tableBytes nbits w),
      { s.withFetchWord nbits w with inputs := (s.held.map fun b => Input.host [b]) ++ s.inputs }) :=
  State.pending_inputs (.inr rfl) rfl

/-- R81: a command byte decodes alike in every phase that accepts commands. -/
theorem decodeHost_of_not_busy {p q : Phase} {bytes : List Byte} {i : Instr} (hp : p.busy = false)
    (hq : q.busy = false) (h : decodeHost p bytes = .ok i) : decodeHost q bytes = .ok i := by
  obtain ⟨b, rfl⟩ := length_of_decodeHost h
  rw [decodeHost_accepted hq, ← decodeHost_accepted hp, h]

/-- What a table word selects is what its bytes decode to on the host command channel in `IDLE`. -/
theorem decodeHost_of_decodeTableWord {nbits w : Nat} {i : Instr} (h : decodeTableWord nbits w = some i) :
    decodeHost .idle (tableBytes nbits w) = .ok i := by
  change (decodeHost .idle (tableBytes nbits w)).toOption = some i at h
  cases hd : decodeHost .idle (tableBytes nbits w) with
  | ok j => rw [hd] at h; cases h; rfl
  | error e => rw [hd] at h; cases h

/-- Settles O44: the word is what the block consumes next, in a phase that accepts it as `IDLE` does. -/
theorem fetchWordRunsNext : Obligations.FetchWordRunsNext := by
  intro s w i h
  have hdecode : decodeHost (s.withFetchWord 8 w).st (tableBytes 8 w) = .ok i :=
    decodeHost_of_not_busy (p := .idle) rfl (s.busy_withFetchWord 8 w) (decodeHost_of_decodeTableWord h)
  exact step_eq_exec (s.pending_withFetchWord 8 w) hdecode

end Sys2Proof.Machine
